-- ==== Sys2Proof/Word.lean ====
section
/-! DEFINITION. The byte of frames, of the store and of the lanes. -/

namespace Sys2Proof

/-- One byte: a frame byte, a store byte, or the eight data lines of a lane. -/
abbrev Byte := BitVec 8

end Sys2Proof
end

