-- ==== Sys2Proof/Syntax.lean ====
section
/-! DEFINITION. The commands: one constructor for each row of spec/opcode_table.json. -/

namespace Sys2Proof

/-- The two host links (R138). -/
inductive LinkId where
  | a
  | b
  deriving DecidableEq, Repr

/-- The link that is not this one. -/
def LinkId.other : LinkId → LinkId
  | .a => .b
  | .b => .a

/-- A gang number, 0..7 (R59). -/
abbrev GangId := Fin 8

/-- A lane number, 0..9 (R54). -/
abbrev LaneId := Fin 10

/-- A directory slot number, 0..47 (R2). -/
abbrev SlotId := Fin 48

/-- What the board and the peripherals put on the eight data lines of one lane: line i is driven where bit i
of `driven` is 1, and then to bit i of `level`. The part's own drivers and pull-ups are not in it (R56). -/
structure BoardByte where
  driven : Byte
  level : Byte
  deriving DecidableEq, Repr

/-- The board's side of the data lines of all ten lanes at one moment. -/
abbrev Board := Vector BoardByte 10

/-- The commands. A request row is the TAKING of the request at the head of the intake of link `x` (R149);
its fields are in that request's payload. An event row carries what the outside gives it. -/
inductive Instr where
  -- requests of the device area
  | hello (x : LinkId)
  | summary (x : LinkId)
  | restartEngine (x : LinkId)
  | restartAll (x : LinkId) (rsel : Fin 4)
  | detach (x : LinkId)
  | sync (x : LinkId)
  -- requests of the store area
  | define (x : LinkId)
  | delete (x : LinkId)
  | lookup (x : LinkId)
  | describe (x : LinkId)
  | catalog (x : LinkId)
  | storeMap (x : LinkId)
  | write (x : LinkId)
  | read (x : LinkId)
  | fill (x : LinkId)
  | pack (x : LinkId)
  | stopPack (x : LinkId)
  -- requests of the gangs area
  | form (x : LinkId)
  | dissolve (x : LinkId)
  | configure (x : LinkId)
  | timing (x : LinkId)
  | gangStatus (x : LinkId)
  | setLines (x : LinkId)
  | getLines (x : LinkId) (board : Board)
  | setControl (x : LinkId)
  -- requests of the jobs area
  | submit (x : LinkId)
  | cancel (x : LinkId)
  | halt (x : LinkId)
  | pause (x : LinkId)
  | resume (x : LinkId)
  | jobStatus (x : LinkId)
  -- a request whose code is not known
  | unknownRequest (x : LinkId)
  -- reception
  | frameReceived (x : LinkId) (byte : Byte)
  | lengthOversize (x : LinkId) (byte : Byte)
  | gapTimerExpiry
  | sselDeasserted
  -- transmission
  | transmitBegin (x : LinkId)
  | transmitEnd (x : LinkId)
  -- the break of Link B
  | breakDetected
  -- the timer of a pending SYNC
  | syncTimerExpiry (x : LinkId)
  -- power, the reset pin and the start-up; `rsel` is the level of the pins RSEL1, RSEL0
  | powerOn (rsel : Fin 4)
  | powerOff
  | resetnAsserted (rsel : Fin 4)
  | resetnReleased (rsel : Fin 4)
  | startupEnd
  -- lane pins; `high` is the new level of the pin
  | flgChange (lane : LaneId) (high : Bool) (board : Board)
  | holdChange (lane : LaneId) (high : Bool)
  -- the timed steps of a beat
  | settleEnd (g : GangId) (board : Board)
  | pulseEnd (g : GangId)
  | periodEnd (g : GangId)
  | beatTimerExpiry (g : GangId)
  -- the pack unit
  | packVisit
  | moveCompletion
  -- reception, the rest
  | byteReceived (x : LinkId) (byte : Byte)
  | breakEnd
  deriving DecidableEq, Repr

end Sys2Proof
end

