-- ==== Sys2Proof/Config.lean ====
section
/-! DEFINITION. The free values: constants with no body, so that no proof can learn them. -/

namespace Sys2Proof

/-- What the data lines of a lane show where the manual gives them no level: a line that nobody drives and
that has no pull-up (R55, R56), and a line driven both ways under PUSH_PULL (R113).
Arguments: the reading's number (`State.fresh`) and the lane. Log 9. -/
opaque Config.freeLevel : Nat → Nat → Byte

/-- What a store offset above 131071 would read as. Such an offset does not exist (R1), and no state that a
run reaches asks for one. Log 10. -/
opaque Config.absentByte : Nat → Byte

end Sys2Proof
end

