-- ==== Sys2Proof/Machine/State.lean ====
section
/-! DEFINITION. The state of the part as plain data, and the state after reset. -/

namespace Sys2Proof.Machine

/-! ## Links (R138, R150, R175) -/

/-- Where the parser stands in the frame being received (R138, R144). -/
inductive ParserState where
  | hunting
  | header
  | payload
  | crc
  deriving DecidableEq, Repr

/-- A good request in the intake (R138). -/
structure Request where
  tag : Byte
  code : Byte
  payload : List Byte
  deriving DecidableEq, Repr

/-- A reply: the tag and code of the request it answers, and a payload that begins with the status (R163). -/
structure Reply where
  tag : Byte
  code : Byte
  payload : List Byte
  deriving DecidableEq, Repr

/-- An entry of the reply queue: a reply, or the reservation of a pending SYNC (R150). -/
inductive ReplyEntry where
  | reply (r : Reply)
  | reservation
  deriving DecidableEq, Repr

/-- A timer, stopped or running. `start` is the time it was started with, in the unit its rule gives; the time
that has passed since is not counted, and the run-out is a command. Log 5. -/
inductive Timer where
  | stopped
  | running (start : Nat)
  deriving DecidableEq, Repr

/-- Is the timer running? -/
def Timer.isRunning : Timer → Bool
  | .stopped => false
  | .running _ => true

/-- A SYNC taken and not yet answered (R152). The timer is in milliseconds. -/
structure PendingSync where
  tag : Byte
  gang : GangId
  timer : Timer
  deriving DecidableEq, Repr

/-- STARTED scopes (R174). -/
inductive Scope where
  | all
  | engine
  | link
  deriving DecidableEq, Repr

/-- STARTED causes (R174, R180). -/
inductive Cause where
  | power
  | pin
  | requestA
  | requestB
  | detach
  | break_
  deriving DecidableEq, Repr

/-- JOB_FAULT reasons (R125). -/
inductive FaultReason where
  | flagTimeout
  | heldOff
  | overrun
  deriving DecidableEq, Repr

/-- LINK_FAULT reasons (R147). -/
inductive LinkFaultReason where
  | check
  | truncated
  | oversize
  | kind
  | overflow
  deriving DecidableEq, Repr

/-- The nine phases of a beat (R80). -/
inductive Phase where
  | waitReady
  | waitTake
  | waitMatch
  | waitToggle
  | waitStrobe
  | waitGate
  | settle
  | pulse
  | period
  deriving DecidableEq, Repr

/-- The fields of a notice after its dropped count (R174). `live` of a FLAG_EDGE says whether the gang record
that queued it still exists: only then is the notice updated in place (R178). Log 16. -/
inductive NoticeBody where
  | started (scope : Scope) (cause : Cause)
  | jobDone (job : Nat) (gang : GangId) (beatsDone : Nat)
  | jobFault (job : Nat) (gang : GangId) (reason : FaultReason) (phase : Phase) (beatsDone : Nat)
  | jobDropped (job : Nat) (gang : GangId) (cause : Nat)
  | packDone (stopped : Bool) (moves barriers freeExtents largest : Nat)
  | flagEdge (gang : GangId) (level : Bool) (edges : Nat) (live : Bool)
  | linkFault (reason : LinkFaultReason)
  deriving DecidableEq, Repr

/-- A notice in the notice queue: its sequence, its dropped count field and its fields (R176). -/
structure Notice where
  seq : Byte
  dropped : Nat
  body : NoticeBody
  deriving DecidableEq, Repr

/-- The frame in transmission, and how many of its bytes have been sent (R151). -/
structure Outbound where
  frame : List Byte
  sent : Nat
  deriving DecidableEq, Repr

/-- The state both links hold (R138). -/
structure Link where
  parser : ParserState
  buffer : List Byte
  intake : List Request
  sync : Option PendingSync
  replies : List ReplyEntry
  notices : List Notice
  outbound : Option Outbound
  dropped : Nat
  seq : Byte
  deriving DecidableEq, Repr

/-- The values of R138 after a start-up has begun. -/
def Link.init : Link :=
  { parser := .hunting, buffer := [], intake := [], sync := none, replies := [], notices := [],
    outbound := none, dropped := 0, seq := 0#8 }

/-- The rates of Link B (R141). -/
inductive Rate where
  | baud115200
  | baud230400
  | baud460800
  | baud921600
  deriving DecidableEq, Repr

/-! ## The block store and block access control (R1, R3, R25) -/

/-- The store bytes that are not 0x00, offsets rising (R1): an unlisted offset reads 0x00. -/
abbrev Mem := List Host.Cell

/-- A waiter: a claim not yet granted (R25). `write` is the access WRITE. -/
structure Waiter where
  job : Nat
  gang : GangId
  write : Bool
  deriving DecidableEq, Repr

/-- A directory record (R3). The slot is its place in the directory, the granules are computed from the size,
and the state is MOVING exactly while `dest` is present. -/
structure Block where
  name : List Byte
  size : Nat
  base : Nat
  dest : Option Nat
  refs : Nat
  readers : List GangId
  writer : Option GangId
  waiters : List Waiter
  deriving DecidableEq, Repr

/-- A directory slot: its generation and, when used, its record (R2). -/
structure Slot where
  gen : Byte
  block : Option Block
  deriving DecidableEq, Repr

/-- A free extent (R6). -/
structure Extent where
  base : Nat
  count : Nat
  deriving DecidableEq, Repr

/-! ## The pack unit (R39) -/

/-- Pack states (R39). -/
inductive PackState where
  | idle
  | running
  | stopping
  deriving DecidableEq, Repr

/-- The block being copied (R39, R43). -/
structure Move where
  slot : SlotId
  src : Nat
  dst : Nat
  granules : Nat
  deriving DecidableEq, Repr

/-- The pack unit (R39). -/
structure Pack where
  state : PackState
  link : Option LinkId
  cursor : Nat
  move : Option Move
  moves : Nat
  barriers : Nat
  deriving DecidableEq, Repr

/-- The pack unit after a full restart (R39). -/
def Pack.init : Pack :=
  { state := .idle, link := none, cursor := 0, move := none, moves := 0, barriers := 0 }

/-! ## Lanes, gangs and engines (R54, R59, R78, R114) -/

/-- The stored state of a lane (R54). ACT follows `enabled` (R58). -/
structure Lane where
  gang : Option GangId
  latched : Byte
  enabled : Bool
  deriving DecidableEq, Repr

/-- A lane of the free-lane condition after a full restart (R54, R55). -/
def Lane.init : Lane := { gang := none, latched := 0x00#8, enabled := false }

/-- The inputs at a lane's pins (R54): true is high. -/
structure LanePins where
  board : BoardByte
  flg : Bool
  hold : Bool
  deriving DecidableEq, Repr

/-- Gang modes (R59). -/
inductive Mode where
  | manual
  | lockstep
  | answered
  | strobed
  | clocked
  deriving DecidableEq, Repr

/-- The twelve configuration fields (R59, R64); each Bool is true for the value numbered 1. -/
structure GangConfig where
  mode : Mode
  /-- manual direction OUT -/
  manualOut : Bool
  /-- lane order DESCENDING -/
  descending : Bool
  /-- data polarity NEGATIVE -/
  dataNeg : Bool
  /-- CTL polarity NEGATIVE -/
  ctlNeg : Bool
  /-- FLG polarity NEGATIVE -/
  flgNeg : Bool
  /-- output style OPEN_DRAIN -/
  openDrain : Bool
  /-- pull-ups ON -/
  pullUps : Bool
  /-- hold-off enable ON -/
  holdOff : Bool
  /-- rest HOLD -/
  restHold : Bool
  /-- watch ON -/
  watch : Bool
  /-- flag gate ON -/
  flagGate : Bool
  deriving DecidableEq, Repr

/-- The configuration a gang has at FORM (R59). -/
def GangConfig.init : GangConfig :=
  { mode := .manual, manualOut := false, descending := false, dataNeg := false, ctlNeg := false,
    flgNeg := false, openDrain := false, pullUps := true, holdOff := false, restHold := false,
    watch := false, flagGate := false }

/-- The four timing fields as applied (R59, R69): nanoseconds, and milliseconds for the beat timeout. -/
structure GangTiming where
  settle : Nat
  pulse : Nat
  period : Nat
  timeout : Nat
  deriving DecidableEq, Repr

/-- The timing a gang has at FORM (R59). -/
def GangTiming.init : GangTiming := { settle := 1000, pulse := 1000, period := 10000, timeout := 1000 }

/-- Run states of a gang (R130). -/
inductive RunState where
  | running
  | pausing
  | paused
  deriving DecidableEq, Repr

/-- How the most recent job of a gang left (R127). -/
inductive LastOutcome where
  | none
  | done
  | faulted
  | cancelled
  | dropped
  deriving DecidableEq, Repr

/-- Job directions (R114). -/
inductive Direction where
  | send
  | capture
  deriving DecidableEq, Repr

/-- Job states (R115). -/
inductive JobState where
  | queued
  | waiting
  | running
  | paused
  deriving DecidableEq, Repr

/-- A job record (R114). The gang is the slot whose queue holds it; beats done is in the beat state (R78). -/
structure Job where
  id : Nat
  dir : Direction
  slot : SlotId
  gen : Byte
  offset : Nat
  beats : Nat
  repeats : Nat
  afterOk : Bool
  quiet : Bool
  state : JobState
  deriving DecidableEq, Repr

/-- The beat state of an active job (R78). The last three fields are state the manual implies: the abandoned
mark of R105, whether the beat in flight has toggled CTL (R88 names both of its waits WAIT_MATCH), and whether
the job has made a drive (R67). Log 15. -/
structure Beat where
  rep : Nat
  index : Nat
  done : Nat
  inFlight : Bool
  phase : Option Phase
  sampled : Bool
  beatTimer : Timer
  periodTimer : Timer
  abandoned : Bool
  toggled : Bool
  drove : Bool
  deriving DecidableEq, Repr

/-- The beat state at activation (R78). -/
def Beat.init : Beat :=
  { rep := 1, index := 0, done := 0, inFlight := false, phase := none, sampled := false,
    beatTimer := .stopped, periodTimer := .stopped, abandoned := false, toggled := false, drove := false }

/-- A formed gang's record, with its engine's queue and beat state (R59, R78, R121). -/
structure Gang where
  owner : LinkId
  first : LaneId
  width : Nat
  cfg : GangConfig
  time : GangTiming
  ctl : Bool
  restDrive : Bool
  watched : Bool
  run : RunState
  last : LastOutcome
  queue : List Job
  beat : Option Beat
  deriving DecidableEq, Repr

/-! ## The part -/

/-- Whether the part has power, is held in reset, is starting up, or serves its links (R170, R171). -/
inductive PartMode where
  | off
  | held
  | starting (cause : Cause)
  | ready
  deriving DecidableEq, Repr

end Sys2Proof.Machine

namespace Sys2Proof.Machine

/-- The whole state of the part, and the queue of waiting commands. -/
structure State where
  /-- off, held in reset, starting up or ready (R170, R171) -/
  mode : PartMode
  /-- a start-up has ended since power was applied (R170) -/
  started : Bool
  /-- the RESETN pin is high (R171) -/
  resetnHigh : Bool
  /-- the store bytes (R1) -/
  store : Mem
  /-- the block directory (R2, R3) -/
  dir : Vector Slot 48
  /-- the free extent list (R6) -/
  free : List Extent
  /-- the pack unit (R39) -/
  pack : Pack
  /-- the lane matrix (R54) -/
  lanes : Vector Lane 10
  /-- the inputs at the lane pins (R54) -/
  pins : Vector LanePins 10
  /-- the gang table with the engines (R59) -/
  gangs : Vector (Option Gang) 8
  /-- the job id counter (R116) -/
  nextId : Nat
  linkA : Link
  linkB : Link
  /-- Link B's gap timer, in milliseconds (R146) -/
  gap : Timer
  /-- Link B's rate (R141) -/
  rate : Rate
  /-- Link B's receiver delivers nothing until the line returns high after a break (R141) -/
  silent : Bool
  /-- Link A's SSEL is asserted (R139) -/
  ssel : Bool
  /-- the byte that the latest byte exchange sent on SDO of Link A; none while SDO is not driven (R139, log 25) -/
  sdo : Option Byte
  /-- the model's own: numbers the readings of the data lines, for `Config.freeLevel` (log 9) -/
  fresh : Nat
  /-- the commands waiting, first in first out -/
  pending : List Instr
  deriving DecidableEq, Repr

/-- No command of this block stops the machine (log 24): a refused request is answered with a status byte
(R164), a link fault and a job fault are notices (R147, R125). -/
inductive Fault where
  deriving DecidableEq, Repr

/-- Why a command has no meaning. -/
inductive Refusal where
  /-- Raised by an arm of `exec` for a command that has no meaning yet; safe. No arm raises it. -/
  | notModelled (mnemonic : String)
  deriving DecidableEq, Repr

/-- The lane pins' inputs at reset (log 2): FLG low, HOLD high, nothing driven by the board. -/
def LanePins.init : LanePins := { board := ⟨0x00#8, 0x00#8⟩, flg := false, hold := true }

/-- The part right after reset: power has just been applied with RESETN released, and the start-up has begun
(R170). Every value is the one the manual states for "after power-on, a release of RESETN and RESTART ALL";
the input pins and the rate they select are log 2. -/
def State.reset : State :=
  { mode := .starting .power
    started := false
    resetnHigh := true
    store := []
    dir := Vector.replicate 48 ⟨0#8, none⟩
    free := [⟨0, 2048⟩]
    pack := .init
    lanes := Vector.replicate 10 .init
    pins := Vector.replicate 10 .init
    gangs := Vector.replicate 8 none
    nextId := 1
    linkA := .init
    linkB := .init
    gap := .stopped
    rate := .baud115200
    silent := false
    ssel := false
    sdo := none
    fresh := 0
    pending := [] }

end Sys2Proof.Machine
end

