-- ==== Sys2Proof/Machine/Operands.lean ====
section
/-! DEFINITION. The fields of payloads (R160, R161): reading a request's fields, writing a reply's or a notice's,
the request codes (R159), the status bytes (R164) and the numbers of the enumerations. -/

namespace Sys2Proof.Machine

/-! ## Reading fields (R160, R161): most significant byte first -/

/-- The one-byte field at place `i`. -/
def byteAt (p : List Byte) (i : Nat) : Nat := (p.getD i 0x00#8).toNat

/-- The two-byte field at place `i`. -/
def be16 (p : List Byte) (i : Nat) : Nat := byteAt p i * 256 + byteAt p (i + 1)

/-- The four-byte field at place `i`. -/
def be32 (p : List Byte) (i : Nat) : Nat := be16 p i * 65536 + be16 p (i + 2)

/-! ## Writing fields (R160) -/

/-- A one-byte field. -/
def u8 (n : Nat) : List Byte := [BitVec.ofNat 8 n]

/-- A two-byte field. -/
def u16 (n : Nat) : List Byte := [BitVec.ofNat 8 (n / 256), BitVec.ofNat 8 n]

/-- A four-byte field. -/
def u32 (n : Nat) : List Byte := u16 (n / 65536) ++ u16 n

/-- A flag, or an enumeration of two values: 0 or 1. -/
def flagByte (b : Bool) : List Byte := u8 b.toNat

/-- A list: a count byte, then its entries in order (R160). -/
def listField {α : Type} (entry : α → List Byte) (l : List α) : List Byte :=
  u8 l.length ++ l.flatMap entry

/-- A name: a length byte, then its characters (R160). -/
def nameField (name : List Byte) : List Byte := u8 name.length ++ name

/-- A gang field that may be absent: 0xFF (R160). -/
def gangField : Option GangId → List Byte
  | some g => u8 g.val
  | none => u8 0xFF

/-- A base that may be absent: 0xFFFF (R160). -/
def baseField : Option Nat → List Byte
  | some b => u16 b
  | none => u16 0xFFFF

/-! ## Names (R5) -/

/-- A character byte folded to upper case. -/
def foldByte (c : Byte) : Byte :=
  if 0x61 ≤ c.toNat ∧ c.toNat ≤ 0x7A then c - 0x20#8 else c

/-- A name folded to upper case. -/
def foldName (name : List Byte) : List Byte := name.map foldByte

/-- A letter A–Z. -/
def isLetter (c : Byte) : Bool := decide (0x41 ≤ c.toNat ∧ c.toNat ≤ 0x5A)

/-- A letter A–Z, a digit 0–9, an underscore or a hyphen. -/
def isNameChar (c : Byte) : Bool :=
  isLetter c || decide (0x30 ≤ c.toNat ∧ c.toNat ≤ 0x39) || c == 0x5F#8 || c == 0x2D#8

/-- Is a folded name well formed? -/
def nameWellFormed : List Byte → Bool
  | [] => false
  | c :: cs => isLetter c && cs.all isNameChar && decide (cs.length < 15)

/-! ## Request codes (R159) -/

namespace Code
def hello : Byte := 0x01#8
def summary : Byte := 0x02#8
def restart : Byte := 0x03#8
def detach : Byte := 0x04#8
def sync : Byte := 0x05#8
def define : Byte := 0x10#8
def delete : Byte := 0x11#8
def lookup : Byte := 0x12#8
def describe : Byte := 0x13#8
def catalog : Byte := 0x14#8
def storeMap : Byte := 0x15#8
def write : Byte := 0x16#8
def read : Byte := 0x17#8
def fill : Byte := 0x18#8
def pack : Byte := 0x19#8
def stopPack : Byte := 0x1A#8
def form : Byte := 0x20#8
def dissolve : Byte := 0x21#8
def configure : Byte := 0x22#8
def timing : Byte := 0x23#8
def gangStatus : Byte := 0x24#8
def setLines : Byte := 0x25#8
def getLines : Byte := 0x26#8
def setControl : Byte := 0x27#8
def submit : Byte := 0x30#8
def cancel : Byte := 0x31#8
def halt : Byte := 0x32#8
def pause : Byte := 0x33#8
def resume : Byte := 0x34#8
def jobStatus : Byte := 0x35#8

/-- Is the code in the table of R159: 0x01..0x05, 0x10..0x1A, 0x20..0x27, 0x30..0x35? -/
def known (c : Byte) : Bool :=
  decide ((0x01 ≤ c.toNat ∧ c.toNat ≤ 0x05) ∨ (0x10 ≤ c.toNat ∧ c.toNat ≤ 0x1A) ∨
    (0x20 ≤ c.toNat ∧ c.toNat ≤ 0x27) ∨ (0x30 ≤ c.toNat ∧ c.toNat ≤ 0x35))
end Code

/-! ## Status bytes (R164) -/

/-- The statuses of R164 other than OK. -/
inductive Status where
  | unknownRequest
  | badLength
  | badField
  | duplicateTag
  | intakeFull
  | notOwner
  | noSuchGang
  | noSuchBlock
  | noSuchJob
  | nameTaken
  | directoryFull
  | storeFull
  | storeFragmented
  | storeBusy
  | notPacking
  | blockBusy
  | blockInUse
  | rangeOutsideBlock
  | laneTaken
  | gangTableFull
  | gangBusy
  | queueFull
  | modeConflict
  | timingConflict
  | chainBroken
  | syncTimeout
  | gangGone
  deriving DecidableEq, Repr

/-- The status byte (R164). -/
def Status.code : Status → Byte
  | .unknownRequest => 1#8
  | .badLength => 2#8
  | .badField => 3#8
  | .duplicateTag => 4#8
  | .intakeFull => 5#8
  | .notOwner => 6#8
  | .noSuchGang => 7#8
  | .noSuchBlock => 8#8
  | .noSuchJob => 9#8
  | .nameTaken => 10#8
  | .directoryFull => 11#8
  | .storeFull => 12#8
  | .storeFragmented => 13#8
  | .storeBusy => 14#8
  | .notPacking => 15#8
  | .blockBusy => 16#8
  | .blockInUse => 17#8
  | .rangeOutsideBlock => 18#8
  | .laneTaken => 19#8
  | .gangTableFull => 20#8
  | .gangBusy => 21#8
  | .queueFull => 22#8
  | .modeConflict => 23#8
  | .timingConflict => 24#8
  | .chainBroken => 25#8
  | .syncTimeout => 26#8
  | .gangGone => 27#8

/-- The status byte OK. -/
def statusOk : Byte := 0#8

/-! ## Numbers of the enumerations -/

/-- Link ids (R165, R59). -/
def linkNum : LinkId → Nat
  | .a => 0
  | .b => 1

/-- Pack states (R17, R39). -/
def PackState.num : PackState → Nat
  | .idle => 0
  | .running => 1
  | .stopping => 2

/-- Modes (R59). -/
def Mode.num : Mode → Nat
  | .manual => 0
  | .lockstep => 1
  | .answered => 2
  | .strobed => 3
  | .clocked => 4

/-- The mode of a number, if it names one (R59). -/
def Mode.ofNum : Nat → Option Mode
  | 0 => some .manual
  | 1 => some .lockstep
  | 2 => some .answered
  | 3 => some .strobed
  | 4 => some .clocked
  | _ => none

/-- Run states (R75). -/
def RunState.num : RunState → Nat
  | .running => 0
  | .pausing => 1
  | .paused => 2

/-- Last outcomes (R75). -/
def LastOutcome.num : LastOutcome → Nat
  | .none => 0
  | .done => 1
  | .faulted => 2
  | .cancelled => 3
  | .dropped => 4

/-- Job states (R114). -/
def JobState.num : JobState → Nat
  | .queued => 0
  | .waiting => 1
  | .running => 2
  | .paused => 3

/-- Directions (R114). -/
def Direction.num : Direction → Nat
  | .send => 0
  | .capture => 1

/-- Phase codes (R80). -/
def Phase.num : Phase → Nat
  | .waitReady => 0
  | .waitTake => 1
  | .waitMatch => 2
  | .waitToggle => 3
  | .waitStrobe => 4
  | .waitGate => 5
  | .settle => 6
  | .pulse => 7
  | .period => 8

/-- STARTED scopes (R174). -/
def Scope.num : Scope → Nat
  | .all => 0
  | .engine => 1
  | .link => 2

/-- STARTED causes (R174). -/
def Cause.num : Cause → Nat
  | .power => 0
  | .pin => 1
  | .requestA => 2
  | .requestB => 3
  | .detach => 4
  | .break_ => 5

/-- JOB_FAULT reasons (R174). -/
def FaultReason.num : FaultReason → Nat
  | .flagTimeout => 0
  | .heldOff => 1
  | .overrun => 2

/-- LINK_FAULT reasons (R147, R174). -/
def LinkFaultReason.num : LinkFaultReason → Nat
  | .check => 0
  | .truncated => 1
  | .oversize => 2
  | .kind => 3
  | .overflow => 4

/-- The cause that names the link on which a RESTART was taken (R180). -/
def requestCause : LinkId → Cause
  | .a => .requestA
  | .b => .requestB

/-- The rate that RSEL1, RSEL0 select (R141). -/
def rateOf (rsel : Fin 4) : Rate :=
  match rsel.val with
  | 0 => .baud115200
  | 1 => .baud230400
  | 2 => .baud460800
  | _ => .baud921600

/-! ## Notices (R174) -/

/-- The kind of a notice, carried in its code byte. -/
def NoticeBody.kind : NoticeBody → Byte
  | .started _ _ => 0x01#8
  | .jobDone _ _ _ => 0x02#8
  | .jobFault _ _ _ _ _ => 0x03#8
  | .jobDropped _ _ _ => 0x04#8
  | .packDone _ _ _ _ _ => 0x05#8
  | .flagEdge _ _ _ _ => 0x06#8
  | .linkFault _ => 0x07#8

/-- The fields of a notice after its dropped count. -/
def NoticeBody.fields : NoticeBody → List Byte
  | .started scope cause => u8 scope.num ++ u8 cause.num
  | .jobDone job g done => u16 job ++ u8 g.val ++ u32 done
  | .jobFault job g reason phase done =>
      u16 job ++ u8 g.val ++ u8 reason.num ++ u8 phase.num ++ u32 done
  | .jobDropped job g cause => u16 job ++ u8 g.val ++ u16 cause
  | .packDone stopped moves barriers extents largest =>
      flagByte stopped ++ u8 moves ++ u8 barriers ++ u8 extents ++ u16 largest
  | .flagEdge g level edges _ => u8 g.val ++ flagByte level ++ u8 edges
  | .linkFault reason => u8 reason.num

/-- The payload of a notice: the dropped count, then its fields. -/
def Notice.payload (n : Notice) : List Byte := u8 n.dropped ++ n.body.fields

end Sys2Proof.Machine
end

