-- ==== Sys2Proof/Machine/Flags.lean ====
section
/-! DEFINITION. The check word (R143), frames (R142), and the levels of the lane pins as functions of the state
(R55, R56, R57, R58, R103, R139, R140). -/

namespace Sys2Proof.Machine

/-! ## The check word (R143) -/

/-- One bit of the CRC: the generator is x^16 + x^12 + x^5 + 1. -/
def crcBit (c : BitVec 16) : BitVec 16 :=
  if c.getMsbD 0 then (c <<< 1) ^^^ 0x1021#16 else c <<< 1

/-- One byte of the CRC, most significant bit first. -/
def crcByte (c : BitVec 16) (b : Byte) : BitVec 16 :=
  (List.range 8).foldl (fun c _ => crcBit c) (c ^^^ (b.setWidth 16 <<< 8))

/-- The CRC-16 of a run of bytes: it starts at 0xFFFF and has no final complement. -/
def crc16 (bs : List Byte) : BitVec 16 := bs.foldl crcByte 0xFFFF#16

/-! ## Frames (R142) -/

/-- The sync byte. -/
def syncByte : Byte := 0xA7#8

/-- The check word's two bytes over bytes 1 .. 4 + L, high byte first. -/
def checkBytes (bs : List Byte) : List Byte := u16 (crc16 bs).toNat

/-- A whole frame. -/
def frameBytes (kind tag code : Byte) (payload : List Byte) : List Byte :=
  let body := kind :: tag :: code :: (u8 payload.length ++ payload)
  syncByte :: (body ++ checkBytes body)

/-- The frame of a reply (kind 2). -/
def Reply.frame (r : Reply) : List Byte := frameBytes 2#8 r.tag r.code r.payload

/-- The frame of a notice (kind 3): the sequence in byte 2, the kind of notice in byte 3. -/
def Notice.frame (n : Notice) : List Byte := frameBytes 3#8 n.seq n.body.kind n.payload

/-! ## Gangs and lanes -/

/-- Does the gang's run of lanes take in lane `i` (R59)? -/
def Gang.has (G : Gang) (i : Nat) : Bool := decide (G.first.val ≤ i ∧ i < G.first.val + G.width)

/-- The lanes of a gang in ascending order. -/
def Gang.lanes (G : Gang) : List LaneId := (List.finRange 10).filter fun i => G.has i.val

/-- The gang a lane belongs to, with its record; a free lane belongs to none (R54, R55). -/
def State.gangOfLane (s : State) (i : LaneId) : Option (GangId × Gang) :=
  s.lanes[i].gang.bind fun g => s.gangs[g].map fun G => (g, G)

/-- Which byte of a beat lane `i` of the gang carries (R60). -/
def Gang.byteOf (G : Gang) (i : Nat) : Nat :=
  if G.cfg.descending then G.first.val + G.width - 1 - i else i - G.first.val

/-- The lanes of a gang in beat byte order (R60). -/
def Gang.beatLanes (G : Gang) : List LaneId := if G.cfg.descending then G.lanes.reverse else G.lanes

/-- The logical FLG level of a gang: its first lane's FLG pin under its FLG polarity (R57). True is asserted. -/
def State.flg (s : State) (G : Gang) : Bool := s.pins[G.first].flg ^^ G.cfg.flgNeg

/-- A gang is held off while its hold-off enable is ON and the HOLD pin of one of its lanes is low (R103). -/
def State.heldOff (s : State) (G : Gang) : Bool :=
  G.cfg.holdOff && G.lanes.any fun i => !s.pins[i].hold

/-- Do the gang's lanes have their drivers enabled? All lanes of a gang are alike (R58). -/
def State.driving (s : State) (G : Gang) : Bool := s.lanes[G.first].enabled

/-- A data byte under a gang's data polarity, in either direction (R56). -/
def Gang.polar (G : Gang) (b : Byte) : Byte := if G.cfg.dataNeg then ~~~b else b

/-- What the data lines show while nobody on the part's side drives them: the board where it drives, else the
pull-up where it is on, else a level the manual does not give (R56, log 9). -/
def floatLevel (pullUps : Bool) (board : BoardByte) (free : Byte) : Byte :=
  (board.driven &&& board.level) ||| (~~~board.driven &&& (if pullUps then 0xFF#8 else free))

/-- What the data lines show while the part drives `own` push-pull: `own`, but where the board drives the
opposite level, which the manual leaves undefined (R113, log 9). -/
def pushPullLevel (own : Byte) (board : BoardByte) (free : Byte) : Byte :=
  let contended := board.driven &&& (board.level ^^^ own)
  (~~~contended &&& own) ||| (contended &&& free)

/-- What the data lines show while the part drives `own` open-drain: low where `own` is 0, and otherwise as
released lines (R56, R58, R113). -/
def openDrainLevel (own : Byte) (pullUps : Bool) (board : BoardByte) (free : Byte) : Byte :=
  own &&& floatLevel pullUps board free

/-- The pin levels of the data lines of lane `i` of gang `G` (R56, R58). -/
def State.dataPins (s : State) (G : Gang) (i : LaneId) : Byte :=
  let own := G.polar s.lanes[i].latched
  let board := s.pins[i].board
  let free := Config.freeLevel s.fresh i.val
  if s.lanes[i].enabled then
    if G.cfg.openDrain then openDrainLevel own G.cfg.pullUps board free else pushPullLevel own board free
  else floatLevel G.cfg.pullUps board free

/-- The pin levels of the data lines of lane `i`: those of its gang, and on a free lane, whose lines float with the
pull-ups off, what the board drives, or a level the manual does not give (R55, R56, log 9). -/
def State.lanePins (s : State) (i : LaneId) : Byte :=
  match s.gangOfLane i with
  | some e => s.dataPins e.2 i
  | none => floatLevel false s.pins[i].board (Config.freeLevel s.fresh i.val)

/-- The logical sensed byte of lane `i` of gang `G` (R56). -/
def State.sensed (s : State) (G : Gang) (i : LaneId) : Byte := G.polar (s.dataPins G i)

/-! ## Output pins, computed from the state (log 17); the SDO byte of Link A is `State.sdo` -/

/-- The level of a lane's CTL pin: the gang's CTL under its polarity on the first lane, low on every other
lane and on a free lane (R55, R57). -/
def State.ctlPin (s : State) (i : LaneId) : Bool :=
  match s.gangOfLane i with
  | none => false
  | some e => if e.2.first = i then e.2.ctl ^^ e.2.cfg.ctlNeg else false

/-- The level of a lane's ACT pin: high exactly while its drivers are enabled (R58). -/
def State.actPin (s : State) (i : LaneId) : Bool := s.lanes[i].enabled

/-- Is the part out of reset and start-up, so that its links and engines act (R157, R170, R171)? -/
def State.ready (s : State) : Bool := s.mode == .ready

/-- Is a reply, not the reservation (R140). -/
def ReplyEntry.isReply : ReplyEntry → Bool
  | .reply _ => true
  | .reservation => false

/-- ATTN of Link A is asserted while an outbound byte is unsent or a frame waits (R140, R157). -/
def State.attn (s : State) : Bool :=
  s.ready &&
    ((match s.linkA.outbound with
      | none => false
      | some o => decide (o.sent < o.frame.length)) ||
      s.linkA.replies.any ReplyEntry.isReply || !s.linkA.notices.isEmpty)

end Sys2Proof.Machine
end

