-- ==== Sys2Proof/Machine/Ops.lean ====
section
/-! DEFINITION. The named operations over the state: accessors, the store bytes, the free extent list, the
directory, replies and notices. -/

namespace Sys2Proof.Machine

/-! ## Vectors -/

/-- Every entry of a vector replaced by a function of its place and itself. -/
def vecMap {α β : Type} {n : Nat} (f : Nat → α → β) (v : Vector α n) : Vector β n :=
  ⟨(v.toList.mapIdx f).toArray, by simp⟩

/-! ## Accessors -/

/-- A link's state. -/
def State.link (s : State) : LinkId → Link
  | .a => s.linkA
  | .b => s.linkB

/-- Replace a link's state. -/
def State.setLink (s : State) (x : LinkId) (l : Link) : State :=
  match x with
  | .a => { s with linkA := l }
  | .b => { s with linkB := l }

/-- Change a link's state. -/
def State.modLink (s : State) (x : LinkId) (f : Link → Link) : State := s.setLink x (f (s.link x))

/-- A gang slot. -/
def State.gang (s : State) (g : GangId) : Option Gang := s.gangs[g]

/-- Replace a gang slot. -/
def State.setGang (s : State) (g : GangId) (o : Option Gang) : State :=
  { s with gangs := s.gangs.set g o }

/-- Change a gang's record, if the slot holds one. -/
def State.modGang (s : State) (g : GangId) (f : Gang → Gang) : State := s.setGang g ((s.gang g).map f)

/-- The block in a directory slot. -/
def State.block (s : State) (i : SlotId) : Option Block := s.dir[i].block

/-- Replace the block in a slot; the generation stays (R2). -/
def State.setBlock (s : State) (i : SlotId) (b : Option Block) : State :=
  { s with dir := s.dir.set i { gen := s.dir[i].gen, block := b } }

/-- Change the record in a slot, if it holds one. -/
def State.modBlock (s : State) (i : SlotId) (f : Block → Block) : State :=
  s.setBlock i ((s.block i).map f)

/-- Change every lane of a gang. -/
def State.modLanes (s : State) (G : Gang) (f : Nat → Lane → Lane) : State :=
  { s with lanes := vecMap (fun i l => if G.has i then f i l else l) s.lanes }

/-- Enable or float the drivers of all lanes of a gang together (R58). -/
def State.setDrivers (s : State) (G : Gang) (on : Bool) : State :=
  s.modLanes G fun _ l => { l with enabled := on }

/-- Take in what the board now puts on the data lines; a new reading of free levels begins (log 8, log 9). -/
def State.senseBoard (s : State) (board : Board) : State :=
  { s with
    pins := vecMap (fun i p => { p with board := board.toList.getD i p.board }) s.pins
    fresh := s.fresh + 1 }

/-! ## The store bytes (R1) -/

/-- The number of store bytes (R1). -/
def storeSize : Nat := 131072

/-- The canonical form: offsets strictly rising and inside the store, and no byte that an unlisted offset
already reads as. -/
abbrev Mem.wf (m : Mem) : Prop :=
  m.Pairwise (fun c d => c.1 < d.1) ∧ ∀ c ∈ m, c.2 ≠ 0x00#8 ∧ c.1 < storeSize

/-- Read one byte. An unlisted offset reads 0x00 (R1); an offset outside the store has no value (log 10). -/
def Mem.get (m : Mem) (a : Nat) : Byte :=
  if a < storeSize then (List.lookup a m).getD 0x00#8 else Config.absentByte a

/-- Replace the cells at offsets `a` .. `a + n - 1` by `cells`. -/
def Mem.splice (m : Mem) (a n : Nat) (cells : Mem) : Mem :=
  m.filter (fun c => decide (c.1 < a)) ++ cells ++ m.filter (fun c => decide (a + n ≤ c.1))

/-- The cells of a run of bytes that starts at offset `a`; bytes outside the store have no cell (log 10). -/
def cellsOf : Nat → List Byte → Mem
  | _, [] => []
  | a, b :: bs =>
    if b = 0x00#8 ∨ storeSize ≤ a then cellsOf (a + 1) bs else (a, b) :: cellsOf (a + 1) bs

/-- Write a run of bytes. -/
def Mem.setBytes (m : Mem) (a : Nat) (bs : List Byte) : Mem := m.splice a bs.length (cellsOf a bs)

/-- Set `n` bytes to one value. -/
def Mem.fill (m : Mem) (a n : Nat) (b : Byte) : Mem :=
  m.splice a n
    (if b = 0x00#8 then []
     else ((List.range' a n).filter fun i => decide (i < storeSize)).map fun i => (i, b))

/-- Read a run of bytes. -/
def Mem.bytes (m : Mem) (a n : Nat) : List Byte := (List.range n).map fun i => m.get (a + i)

/-- Copy `n` bytes from `src` to `dst`: byte k of the destination becomes what byte k of the source was (R44). -/
def Mem.copy (m : Mem) (src dst n : Nat) : Mem :=
  m.splice dst n
    (((m.filter fun c => decide (src ≤ c.1 ∧ c.1 < src + n)).map fun c => (c.1 - src + dst, c.2)).filter
      fun c => decide (c.1 < storeSize))

/-! ## Free extents (R6, R8, R9) -/

/-- The granules a size takes: ceil(size / 64) (R3). -/
def granulesOf (size : Nat) : Nat := (size + 63) / 64

/-- The granules of a block. -/
def Block.granules (b : Block) : Nat := granulesOf b.size

/-- The store offset of byte `k` of a block (R1). -/
def Block.addr (b : Block) (k : Nat) : Nat := 64 * b.base + k

/-- The sum of the counts of all extents (R9). -/
def freeGranules (l : List Extent) : Nat := (l.map Extent.count).sum

/-- The greatest count in the list, or 0 (R9). -/
def largestExtent (l : List Extent) : Nat := (l.map Extent.count).foldr max 0

/-- Return the granules `e` to the list, merged with the extent that ends directly below it and the extent that
begins directly above it (R8). -/
def giveBack (e : Extent) : List Extent → List Extent
  | [] => [e]
  | x :: xs =>
    if x.base + x.count = e.base then
      match xs with
      | h :: rest =>
        if e.base + e.count = h.base then ⟨x.base, x.count + e.count + h.count⟩ :: rest
        else ⟨x.base, x.count + e.count⟩ :: h :: rest
      | [] => [⟨x.base, x.count + e.count⟩]
    else if e.base + e.count = x.base then ⟨e.base, e.count + x.count⟩ :: xs
    else if e.base < x.base then e :: x :: xs
    else x :: giveBack e xs

/-- First-fit in ascending address (R9): the base allocated and the list that is left. -/
def allocate (n : Nat) : List Extent → Option (Nat × List Extent)
  | [] => none
  | e :: es =>
    if e.count = n then some (e.base, es)
    else if n < e.count then some (e.base, ⟨e.base + n, e.count - n⟩ :: es)
    else (allocate n es).map fun r => (r.1, e :: r.2)

/-! ## The directory (R2, R4, R5, R16) -/

/-- The block a handle resolves to (R4). -/
def State.resolve (s : State) (slot : Nat) (gen : Byte) : Option (SlotId × Block) :=
  if h : slot < 48 then
    if s.dir[slot].gen = gen then (s.dir[slot].block).map fun b => (⟨slot, h⟩, b) else none
  else none

/-- The handle at place `i` of a payload, resolved (R4). -/
def State.resolveAt (s : State) (p : List Byte) (i : Nat) : Option (SlotId × Block) :=
  s.resolve (byteAt p i) (p.getD (i + 1) 0x00#8)

/-- The used slots with their blocks, by slot number. -/
def State.blocks (s : State) : List (SlotId × Block) :=
  (List.finRange 48).filterMap fun i => (s.block i).map fun b => (i, b)

/-- The block with a given name (R5). -/
def State.named (s : State) (name : List Byte) : Option (SlotId × Block) :=
  s.blocks.find? fun e => e.2.name == name

/-- The lowest-numbered free slot (R11). -/
def State.freeSlot (s : State) : Option SlotId := (List.finRange 48).find? fun i => (s.block i).isNone

/-- Insert into a list ordered by base. -/
def insertByBase (e : SlotId × Block) : List (SlotId × Block) → List (SlotId × Block)
  | [] => [e]
  | x :: xs => if e.2.base ≤ x.2.base then e :: x :: xs else x :: insertByBase e xs

/-- The blocks in ascending order of their current base (R16, R41). -/
def State.blocksByBase (s : State) : List (SlotId × Block) := s.blocks.foldr insertByBase []

/-- The handle of a slot's block: slot, then generation (R4, R160). -/
def State.handle (s : State) (i : SlotId) : List Byte := u8 i.val ++ [s.dir[i].gen]

/-! ## Gangs -/

/-- The gang a request's byte names (R61). -/
def State.gangAt (s : State) (n : Nat) : Option (GangId × Gang) :=
  if h : n < 8 then (s.gang ⟨n, h⟩).map fun G => (⟨n, h⟩, G) else none

/-- The formed gangs with their numbers. -/
def State.formed (s : State) : List (GangId × Gang) :=
  (List.finRange 8).filterMap fun g => (s.gang g).map fun G => (g, G)

/-- The live jobs with their gangs (R114). -/
def State.liveJobs (s : State) : List (GangId × Job) :=
  s.formed.flatMap fun e => e.2.queue.map fun J => (e.1, J)

/-- The lowest free slot of the gang table (R62). -/
def State.freeGang (s : State) : Option GangId := (List.finRange 8).find? fun g => (s.gang g).isNone

/-! ## Replies (R149, R150, R163) -/

/-- The most entries a reply queue holds (R150). -/
def replyCap : Nat := 8

/-- The most requests an intake holds (R150). -/
def intakeCap : Nat := 4

/-- The most notices a notice queue holds (R150). -/
def noticeCap : Nat := 16

/-- The most jobs a gang queue holds (R121). -/
def queueCap : Nat := 6

/-- Queue a reply at the tail of a link's reply queue (R149). -/
def State.pushReply (s : State) (x : LinkId) (r : Reply) : State :=
  s.modLink x fun l => { l with replies := l.replies ++ [.reply r] }

/-- How a taken request is answered: refused, with no change of state, or carried out (R163). -/
inductive Answer where
  | refuse (status : Status)
  | ok (fields : List Byte) (s : State)

/-- Queue the reply of a taken request (R163). -/
def answer (x : LinkId) (r : Request) (s : State) : Answer → State
  | .refuse st => s.pushReply x ⟨r.tag, r.code, [st.code]⟩
  | .ok fields s' => s'.pushReply x ⟨r.tag, r.code, statusOk :: fields⟩

/-- A link takes the request at the head of its intake when the part is ready, the intake is not empty, no SYNC
is pending on the link and its reply queue has a free slot (R149). A row of the table takes only the requests it
names; otherwise its event cannot occur, and nothing happens (log 3, log 6). -/
def State.take (s : State) (x : LinkId) (wanted : Request → Bool) (act : Request → State → State) : State :=
  if s.ready then
    match (s.link x).intake with
    | [] => s
    | r :: rest =>
      if wanted r && (s.link x).sync.isNone && decide ((s.link x).replies.length < replyCap) then
        act r (s.modLink x fun l => { l with intake := rest })
      else s
  else s

/-- Take a request of one code: its length is checked first (R161), then its rule answers it (R162). -/
def State.serve (s : State) (x : LinkId) (code : Byte) (lengthOk : List Byte → Bool)
    (rule : List Byte → State → Answer) : State :=
  s.take x (fun r => r.code == code) fun r s =>
    answer x r s (if lengthOk r.payload then rule r.payload s else .refuse .badLength)

/-- The reservation becomes the reply and keeps its place (R150). -/
def replaceReservation (r : Reply) (l : List ReplyEntry) : List ReplyEntry :=
  l.map fun e => match e with
    | .reply q => .reply q
    | .reservation => .reply r

/-- Answer the SYNC pending on a link, if one is: the pending SYNC becomes absent with its timer (R153). -/
def State.resolveSync (s : State) (x : LinkId) (payload : List Byte) : State :=
  match (s.link x).sync with
  | none => s
  | some p =>
    s.modLink x fun l =>
      { l with sync := none, replies := replaceReservation ⟨p.tag, Code.sync, payload⟩ l.replies }

/-- Answer the SYNC pending on a link if it names one of the gangs `hit`. -/
def State.resolveSyncOf (s : State) (x : LinkId) (hit : GangId → Bool) (payload : GangId → List Byte) : State :=
  match (s.link x).sync with
  | none => s
  | some p => if hit p.gang then s.resolveSync x (payload p.gang) else s

/-- The gang's queue has become empty: a SYNC pending on it on either link is answered OK with the gang number
and the last outcome (R153). -/
def State.syncEmptied (s : State) (g : GangId) : State :=
  let payload := fun _ => statusOk :: (u8 g.val ++ u8 (((s.gang g).map fun G => G.last.num).getD 0))
  (s.resolveSyncOf .a (· == g) payload).resolveSyncOf .b (· == g) payload

/-- Gangs are freed: a SYNC pending on one of them on link `x` is answered GANG_GONE (R153). -/
def State.syncGone (s : State) (x : LinkId) (hit : GangId → Bool) : State :=
  s.resolveSyncOf x hit fun g => Status.gangGone.code :: u8 g.val

/-! ## Notices (R176, R178) -/

/-- Queue a notice on a link, or discard and count it when the queue holds 16 (R176). -/
def State.notify (s : State) (x : LinkId) (body : NoticeBody) : State :=
  s.modLink x fun l =>
    if l.notices.length < noticeCap then
      { l with notices := l.notices ++ [⟨l.seq, l.dropped, body⟩], seq := l.seq + 1#8, dropped := 0 }
    else { l with dropped := min 255 (l.dropped + 1) }

/-- A waiting FLAG_EDGE notice of a gang whose record still exists (R178). -/
def Notice.isEdgeOf (g : GangId) (n : Notice) : Bool :=
  match n.body with
  | .flagEdge h _ _ live => live && h == g
  | _ => false

/-- A waiting FLAG_EDGE notice updated in place: the new level, and one more edge up to 255 (R76, R178). -/
def Notice.addEdge (level : Bool) (n : Notice) : Notice :=
  match n.body with
  | .flagEdge g _ edges live => { n with body := .flagEdge g level (min 255 (edges + 1)) live }
  | _ => n

/-- Report a change of a gang's watched level on a link (R76): update the waiting notice, or queue a new one. -/
def State.notifyEdge (s : State) (x : LinkId) (g : GangId) (level : Bool) : State :=
  if (s.link x).notices.any (Notice.isEdgeOf g) then
    s.modLink x fun l =>
      { l with notices := l.notices.map fun n => if n.isEdgeOf g then n.addEdge level else n }
  else s.notify x (.flagEdge g level 1 true)

/-- The record of a freed gang is gone: its waiting FLAG_EDGE notice stays and is updated no further (R178). -/
def Notice.orphan (hit : GangId → Bool) (n : Notice) : Notice :=
  match n.body with
  | .flagEdge g level edges live => { n with body := .flagEdge g level edges (live && !hit g) }
  | _ => n

/-- The same for every notice waiting on a link. -/
def State.orphanEdges (s : State) (x : LinkId) (hit : GangId → Bool) : State :=
  s.modLink x fun l => { l with notices := l.notices.map (Notice.orphan hit) }

/-- A link fault queues LINK_FAULT on the same link (R147). -/
def State.linkFault (s : State) (x : LinkId) (reason : LinkFaultReason) : State :=
  s.notify x (.linkFault reason)

end Sys2Proof.Machine
end

