-- ==== Sys2Proof/Machine/Beats.lean ====
section
/-! DEFINITION. The beat of a transfer engine: its drive and sample (R81), its first step (R86-R97) and its
beginning (R79). -/

namespace Sys2Proof.Machine

/-! ## The engine's own state -/

/-- Act on a gang's active job and its beat state, if there is one. -/
def State.withActive (s : State) (g : GangId) (f : Gang → Job → Beat → State) : State :=
  match s.gang g with
  | none => s
  | some G =>
    match G.queue, G.beat with
    | J :: _, some B => f G J B
    | _, _ => s

/-- Change a gang's beat state, if it has one. -/
def State.modBeat (s : State) (g : GangId) (f : Beat → Beat) : State :=
  s.modGang g fun G => { G with beat := G.beat.map f }

/-- The beat enters a phase. -/
def State.setPhase (s : State) (g : GangId) (p : Phase) : State := s.modBeat g fun B => { B with phase := some p }

/-- The gang's CTL level (R57). -/
def State.setCtl (s : State) (g : GangId) (level : Bool) : State := s.modGang g fun G => { G with ctl := level }

/-- The state of a gang's active job (R115). -/
def State.setJobState (s : State) (g : GangId) (st : JobState) : State :=
  s.modGang g fun G =>
    { G with
      queue := match G.queue with
        | J :: rest => { J with state := st } :: rest
        | [] => [] }

/-- The store offset of byte `j` of the beat in flight (R22, R23). -/
def beatAddr (b : Block) (J : Job) (B : Beat) (width j : Nat) : Nat :=
  b.addr (J.offset + B.index * width + j)

/-! ## Drive and sample (R81) -/

/-- Drive: the beat's bytes are read from the block and latched on the gang's lanes in lane order, and the
drivers are enabled (R22, R60, R81). -/
def State.drive (s : State) (g : GangId) : State :=
  s.withActive g fun G J B =>
    match s.block J.slot with
    | none => s
    | some b =>
      (s.modLanes G fun i l =>
        { l with latched := s.store.get (beatAddr b J B G.width (G.byteOf i)), enabled := true }).modBeat g
        fun B => { B with drove := true }

/-- Sample: the logical sensed bytes of the gang's lanes are written into the block together, and the beat is
counted (R23, R60, R81, R82). -/
def State.sample (s : State) (g : GangId) : State :=
  s.withActive g fun G J B =>
    match s.block J.slot with
    | none => s
    | some b =>
      ({ s with
          store := s.store.setBytes (beatAddr b J B G.width 0) (G.beatLanes.map (s.sensed G)) } : State).modBeat g
        fun B => { B with sampled := true, done := B.done + 1 }

/-! ## Steps that follow a wait -/

/-- Drive the beat's bytes, then wait the settle time. -/
def State.driveAndSettle (s : State) (g : GangId) : State := (s.drive g).setPhase g .settle

/-- What follows WAIT_READY: SEND drives and settles (R86, R91); a LOCKSTEP CAPTURE beat asserts CTL and waits
for the peripheral's word (R87). FLG is deasserted here, so WAIT_TAKE does not end at once. -/
def State.passReady (s : State) (g : GangId) : State :=
  s.withActive g fun _ J _ =>
    match J.dir with
    | .send => s.driveAndSettle g
    | .capture => (s.setCtl g true).setPhase g .waitTake

/-- The period start of a CLOCKED beat: the period timer starts; SEND drives and settles (R95), CAPTURE asserts
CTL (R97). -/
def State.periodStart (s : State) (g : GangId) : State :=
  s.withActive g fun G J _ =>
    let s := s.modBeat g fun B => { B with periodTimer := .running G.time.period }
    match J.dir with
    | .send => s.driveAndSettle g
    | .capture => (s.setCtl g true).setPhase g .pulse

/-! ## The beginning of a beat -/

/-- The first step of the beat's mode, taken up to the first phase that does not end at once (R80):
R86, R87 (LOCKSTEP), R88, R89 (ANSWERED), R91, R92 (STROBED), R95-R97 (CLOCKED). A gang in MANUAL has no job. -/
def State.enterFirst (s : State) (g : GangId) : State :=
  s.withActive g fun G J _ =>
    match G.cfg.mode, J.dir with
    | .manual, _ => s
    | .lockstep, _ => if s.flg G then s.setPhase g .waitReady else s.passReady g
    | .strobed, .send => if s.flg G then s.setPhase g .waitReady else s.passReady g
    | .strobed, .capture => s.setPhase g .waitStrobe
    | .answered, .send => if s.flg G = G.ctl then s.driveAndSettle g else s.setPhase g .waitMatch
    | .answered, .capture => s.setPhase g (if s.flg G = G.ctl then .waitToggle else .settle)
    | .clocked, .send => if G.cfg.flagGate && s.flg G then s.setPhase g .waitGate else s.periodStart g
    | .clocked, .capture => s.periodStart g

/-- The beat timer at the beginning of a beat: with a timeout of 0 it is not started (R83). -/
def startTimer (timeout : Nat) : Timer := if timeout = 0 then .stopped else .running timeout

/-- A beat begins: it is in flight, not sampled, its timer starts, and it enters its first step (R79). -/
def State.beginBeat (s : State) (g : GangId) : State :=
  s.withActive g fun G _ _ =>
    (s.modBeat g fun B =>
      { B with inFlight := true, sampled := false, abandoned := false, toggled := false,
               beatTimer := startTimer G.time.timeout }).enterFirst g

/-- May a beat of the active job begin now? The job and the gang are RUNNING, no beat is in flight, and a SEND
job's gang is not held off (R79). -/
def State.beatDue (s : State) (G : Gang) (J : Job) (B : Beat) : Bool :=
  J.state == .running && G.run == .running && !B.inFlight && (J.dir == .capture || !s.heldOff G)

/-- The next beat begins if it may (R79). -/
def State.tryBegin (s : State) (g : GangId) : State :=
  s.withActive g fun G J B => if s.beatDue G J B then s.beginBeat g else s

end Sys2Proof.Machine
end

