-- ==== Sys2Proof/Machine/Access.lean ====
section
/-! DEFINITION. Block access control: claims (R27, R28), grant evaluations (R29, R30), release and removal
(R31, R32), and the start and end of a move (R34, R35) as far as the record goes. -/

namespace Sys2Proof.Machine

/-- Insert a gang into the readers, which are kept in ascending order without repeats (R25). -/
def addReader (g : GangId) : List GangId → List GangId
  | [] => [g]
  | x :: xs => if g < x then g :: x :: xs else if g = x then x :: xs else x :: addReader g xs

/-- Is a claim granted at once (R28)? -/
def Block.grants (b : Block) (write : Bool) : Bool :=
  b.waiters.isEmpty && b.dest.isNone && b.writer.isNone && (!write || b.readers.isEmpty)

/-- Does a block have a holder (R34)? -/
def Block.held (b : Block) : Bool := b.writer.isSome || !b.readers.isEmpty

/-- A grant is handed to the gang's engine: the job becomes PAUSED in a PAUSED gang, else RUNNING, and its first
beat begins if it may (R28, R79, R122). -/
def State.handGrant (s : State) (g : GangId) : State :=
  match s.gang g with
  | none => s
  | some G =>
    match G.run with
    | .paused => s.setJobState g .paused
    | .running | .pausing => (s.setJobState g .running).tryBegin g

/-- A grant evaluation of a block (R29): the oldest waiting writer alone when nobody holds the block, or the run
of readers at the head of the list when the block has no writer. The grants are made together and then handed
to the engines. -/
def State.evaluate (s : State) (i : SlotId) : State :=
  match s.block i with
  | none => s
  | some b =>
    if b.dest.isSome then s
    else
      match b.waiters with
      | [] => s
      | w :: ws =>
        if w.write then
          if b.held then s
          else (s.modBlock i fun b => { b with writer := some w.gang, waiters := ws }).handGrant w.gang
        else if b.writer.isSome then s
        else
          let granted := (w :: ws).takeWhile fun v => !v.write
          let s := s.modBlock i fun b =>
            { b with
              readers := granted.foldl (fun r v => addReader v.gang r) b.readers
              waiters := (w :: ws).dropWhile fun v => !v.write }
          granted.foldl (fun s v => s.handGrant v.gang) s

/-- The access record without any entry of the gangs `hit` (R31, R32, R38). -/
def Block.without (b : Block) (hit : GangId → Bool) : Block :=
  { b with
    readers := b.readers.filter fun g => !hit g
    writer := b.writer.filter fun g => !hit g
    waiters := b.waiters.filter fun w => !hit w.gang }

/-- Does the access record hold an entry of the gangs `hit`? -/
def Block.mentions (b : Block) (hit : GangId → Bool) : Bool :=
  b.readers.any hit || b.writer.any hit || b.waiters.any fun w => hit w.gang

/-- A gang's holder is released or its waiter removed, and a grant evaluation follows (R30, R31, R32). -/
def State.release (s : State) (i : SlotId) (g : GangId) : State :=
  (s.modBlock i fun b => b.without (· == g)).evaluate i

/-- One live job fewer names the block (R13). -/
def State.unref (s : State) (i : SlotId) : State := s.modBlock i fun b => { b with refs := b.refs - 1 }

/-- The active job of a gang claims its block: granted at once, or appended to the waiter list with the job
WAITING (R27, R28). -/
def State.claim (s : State) (g : GangId) : State :=
  s.withActive g fun _ J _ =>
    match s.block J.slot with
    | none => s
    | some b =>
      let write := J.dir == .capture
      if b.grants write then
        (s.modBlock J.slot fun b =>
          if write then { b with writer := some g } else { b with readers := addReader g b.readers }).handGrant g
      else
        (s.modBlock J.slot fun b => { b with waiters := b.waiters ++ [⟨J.id, g, write⟩] }).setJobState g .waiting

end Sys2Proof.Machine
end

