-- ==== Sys2Proof/Machine/Queues.lean ====
section
/-! DEFINITION. Gang queues: activation (R122), departure (R123), drops (R126) and the rest of a gang (R67). -/

namespace Sys2Proof.Machine

/-- Activation of the head of a gang's queue (R122): CTL deasserted, drivers floated, rest drive NO, a new beat
state, and the claim. -/
def State.activate (s : State) (g : GangId) : State :=
  match s.gang g with
  | none => s
  | some G =>
    ((s.setDrivers G false).modGang g fun G =>
      { G with ctl := false, restDrive := false, beat := some .init }).claim g

/-- The rest decides the drivers of a gang whose queue is empty (R67). `sent` says that the job that left was a
SEND job that made at least one drive. -/
def State.applyRest (s : State) (g : GangId) (sent : Bool) : State :=
  match s.gang g with
  | none => s
  | some G =>
    let rest := G.cfg.restHold && sent
    (s.modGang g fun G => { G with restDrive := rest }).setDrivers G (rest && !s.heldOff G)

/-- The last outcome of a gang (R127). -/
def State.setLast (s : State) (g : GangId) (o : LastOutcome) : State := s.modGang g fun G => { G with last := o }

/-- A notice for a gang's owner link (R179). -/
def State.notifyOwner (s : State) (g : GangId) (body : NoticeBody) : State :=
  match s.gang g with
  | none => s
  | some G => s.notify G.owner body

/-- Jobs dropped one after another (R126): for each, refs decreases, the last outcome is DROPPED and JOB_DROPPED
is queued with the cause. They are out of the queue already. -/
def State.dropJobs (s : State) (g : GangId) (cause : Nat) (jobs : List Job) : State :=
  jobs.foldl
    (fun s K => ((s.unref K.slot).setLast g .dropped).notifyOwner g (.jobDropped K.id g cause)) s

/-- The last step of an active job's departure (R123 step 5): a PAUSING gang becomes PAUSED (R131); an empty queue
lets the rest decide and answers a SYNC (R67, R153); otherwise the new head is activated (R122). -/
def State.finishDeparture (s : State) (g : GangId) (sent : Bool) : State :=
  let s := s.modGang g fun G => { G with run := if G.run = .pausing then .paused else G.run }
  match s.gang g with
  | none => s
  | some G => if G.queue.isEmpty then (s.applyRest g sent).syncEmptied g else s.activate g

/-- The departure of the active job (R123): queue and access, last outcome, notice, drops, next job. The jobs it
drops are the run of after_ok jobs directly behind it, unless it ended DONE (R126). -/
def State.departHead (s : State) (g : GangId) (o : LastOutcome) (notice : Option NoticeBody) : State :=
  match s.gang g with
  | none => s
  | some G =>
    match G.queue with
    | [] => s
    | J :: rest =>
      let sent := J.dir == .send && G.beat.any Beat.drove
      let drops := if o = .done then [] else rest.takeWhile Job.afterOk
      let keep := if o = .done then rest else rest.dropWhile Job.afterOk
      let s := s.modGang g fun G => { G with queue := keep, beat := none }
      let s := (s.release J.slot g).unref J.slot
      let s := s.setLast g o
      let s := match notice with
        | none => s
        | some body => s.notifyOwner g body
      (s.dropJobs g J.id drops).finishDeparture g sent

/-- The departure of a cancelled job behind the head (R123, R128): it leaves its place, and the after_ok jobs
directly behind it are dropped (R126). `before` and `behind` are the jobs ahead of and behind it. -/
def State.departQueued (s : State) (g : GangId) (before : List Job) (J : Job) (behind : List Job) : State :=
  let s := s.modGang g fun G => { G with queue := before ++ behind.dropWhile Job.afterOk }
  let s := (s.unref J.slot).setLast g .cancelled
  s.dropJobs g J.id (behind.takeWhile Job.afterOk)

end Sys2Proof.Machine
end

