-- ==== Sys2Proof/Machine/Engine.lean ====
section
/-! DEFINITION. The transfer engine's events: completion of a beat (R82), faults (R84, R93), FLG changes (R80),
the ends of timed phases, the beat timer, and hold-off (R105, R106). -/

namespace Sys2Proof.Machine

/-! ## The end of a beat -/

/-- A beat is counted at its completion in SEND; a CAPTURE beat was counted at its sample (R82). -/
def countAtCompletion (J : Job) (B : Beat) : Nat := if J.dir = .send then B.done + 1 else B.done

/-- The beat state after the completion of a beat: timers stopped, no beat in flight, and the indices at the
next beat, or at the next repeat (R82). -/
def Beat.next (B : Beat) (J : Job) : Beat :=
  { B with
    rep := if B.index + 1 < J.beats then B.rep else B.rep + 1
    index := if B.index + 1 < J.beats then B.index + 1 else 0
    done := countAtCompletion J B
    inFlight := false
    phase := none
    beatTimer := .stopped
    periodTimer := .stopped
    toggled := false }

/-- A beat completes (R82). After the last beat of the last repeat CTL is deasserted and the job departs DONE
with JOB_DONE unless it is quiet (R124); otherwise the next beat begins (R79), or a PAUSING gang becomes PAUSED
(R131). -/
def State.completeBeat (s : State) (g : GangId) : State :=
  s.withActive g fun G J B =>
    let B' := B.next J
    let s := s.modBeat g fun _ => B'
    if J.repeats < B'.rep then
      (s.setCtl g false).departHead g .done
        (if J.quiet then none else some (.jobDone J.id g B'.done))
    else
      match G.run with
      | .running => s.tryBegin g
      | .pausing => (s.modGang g fun G => { G with run := .paused }).setJobState g .paused
      | .paused => s

/-- The active job faults (R84, R93, R125): its beat ends, CTL is deasserted, and it departs FAULTED with
JOB_FAULT carrying the reason, the phase the beat has reached and beats done. -/
def State.faultJob (s : State) (g : GangId) (reason : FaultReason) : State :=
  s.withActive g fun _ J B =>
    (s.setCtl g false).departHead g .faulted
      (some (.jobFault J.id g reason (B.phase.getD .waitReady) B.done))

/-- A sample, then CTL toggled or deasserted, then completion: the end of SETTLE in CAPTURE (R87, R89). -/
def State.sampleAndComplete (s : State) (g : GangId) (ctl : Bool) : State :=
  ((s.sample g).setCtl g ctl).completeBeat g

/-! ## FLG (R80, R93, R96) -/

/-- The gang's logical FLG level has changed to `f` while it runs jobs: the change is tested against the phase of
a beat in flight that hold-off has not abandoned (R80, R105), or is an overrun in the busy pulse of a STROBED
CAPTURE beat (R93). -/
def State.flgMoved (s : State) (g : GangId) (f : Bool) : State :=
  s.withActive g fun G J B =>
    if B.inFlight && !B.abandoned then
      match B.phase with
      | some .waitReady => if f then s else s.passReady g
      | some .waitTake =>
        if f then
          match J.dir with
          | .send => (s.setCtl g false).completeBeat g
          | .capture => s.setPhase g .settle
        else s
      | some .waitMatch =>
        if f = G.ctl then (if B.toggled then s.completeBeat g else s.driveAndSettle g) else s
      | some .waitToggle => if f = G.ctl then s else s.setPhase g .settle
      | some .waitStrobe => if f then ((s.sample g).setCtl g true).setPhase g .pulse else s
      | some .waitGate => if f then s else s.periodStart g
      | some .pulse =>
        if f && G.cfg.mode == .strobed && J.dir == .capture then s.faultJob g .overrun else s
      | some .settle => s
      | some .period => s
      | none => s
    else s

/-- The flag watch of a MANUAL gang (R76). -/
def State.watchFlg (s : State) (g : GangId) (f : Bool) : State :=
  match s.gang g with
  | none => s
  | some G =>
    if G.cfg.watch && f != G.watched then
      (s.modGang g fun G => { G with watched := f }).notifyEdge G.owner g f
    else s

/-! ## The timed steps -/

/-- May the settle time of a CLOCKED CAPTURE beat end now? It is timed from the period start like the pulse, so it
cannot end before a shorter pulse has (R97, log 5). -/
def clockedSampleDue (G : Gang) (B : Beat) : Bool :=
  !B.sampled && (B.phase == some .settle || (B.phase == some .pulse && decide (G.time.settle ≤ G.time.pulse)))

/-- May the settle time end now? The beat is in flight, not abandoned by hold-off (R105), and in phase SETTLE, or
it is a CLOCKED CAPTURE beat whose sample is due (R97). -/
def settleDue (G : Gang) (J : Job) (B : Beat) : Bool :=
  B.inFlight && !B.abandoned &&
    (if G.cfg.mode = .clocked ∧ J.dir = .capture then clockedSampleDue G B else B.phase == some .settle)

/-- The settle time has passed, and the steps of the mode that follow SETTLE are taken (R86-R91, R95, R97). -/
def State.settleDone (s : State) (g : GangId) : State :=
  s.withActive g fun G J B =>
    match G.cfg.mode, J.dir with
    | .lockstep, .send =>
      if s.flg G then (s.setCtl g false).completeBeat g else (s.setCtl g true).setPhase g .waitTake
    | .lockstep, .capture => s.sampleAndComplete g false
    | .answered, .send =>
      let s' := (s.setCtl g !G.ctl).modBeat g fun B => { B with toggled := true }
      if s.flg G = !G.ctl then s'.completeBeat g else s'.setPhase g .waitMatch
    | .answered, .capture => s.sampleAndComplete g !G.ctl
    | .strobed, .send => (s.setCtl g true).setPhase g .pulse
    | .clocked, .send => (s.setCtl g true).setPhase g .pulse
    | .clocked, .capture => if B.phase = some .settle then (s.sample g).setPhase g .period else s.sample g
    | .strobed, .capture => s
    | .manual, _ => s

/-- Does the CTL pulse of a CLOCKED SEND beat end at or after the period timer's zero (R95)? -/
def pulseOutlasts (G : Gang) : Bool := decide (G.time.period ≤ G.time.settle + G.time.pulse)

/-- The pulse time has passed: CTL is deasserted and the sequence goes on (R91, R92, R95, R97). -/
def State.pulseDone (s : State) (g : GangId) : State :=
  s.withActive g fun G J B =>
    if B.inFlight && !B.abandoned && B.phase == some .pulse then
      match G.cfg.mode, J.dir with
      | .strobed, _ => (s.setCtl g false).completeBeat g
      | .clocked, .send =>
        if pulseOutlasts G then (s.setCtl g false).completeBeat g
        else (s.setCtl g false).setPhase g .period
      | .clocked, .capture =>
        if B.sampled then (s.setCtl g false).setPhase g .period
        else if G.time.pulse ≤ G.time.settle then (s.setCtl g false).setPhase g .settle
        else s
      | _, _ => s
    else s

/-- The period timer reaches zero (R94, R95, R97): the beat completes if its CTL pulse has ended; in a SEND beat
whose pulse outlasts the period only the timer stops. -/
def State.periodDone (s : State) (g : GangId) : State :=
  s.withActive g fun G J B =>
    if B.inFlight && !B.abandoned && B.periodTimer.isRunning then
      if B.phase = some .period then s.completeBeat g
      else if B.phase = some .pulse ∧ J.dir = .send ∧ pulseOutlasts G then
        s.modBeat g fun B => { B with periodTimer := .stopped }
      else s
    else s

/-- The beat timer of a beat in flight reaches zero (R84, R107): HELD_OFF if the gang is held off at that moment,
FLAG_TIMEOUT otherwise. -/
def State.beatExpired (s : State) (g : GangId) : State :=
  s.withActive g fun G _ B =>
    if B.inFlight && B.beatTimer.isRunning then
      s.faultJob g (if s.heldOff G then .heldOff else .flagTimeout)
    else s

/-! ## Hold-off (R105, R106, R108, R109) -/

/-- A SEND beat in flight is abandoned (R105): CTL returns to its level at the beginning of the beat, the period
timer stops, and the beat keeps its phase and its beat timer. -/
def State.abandonBeat (s : State) (g : GangId) : State :=
  s.withActive g fun _ J B =>
    if J.dir == .send && B.inFlight && !B.abandoned then
      (s.modGang g fun G =>
        { G with ctl := if G.cfg.mode = .answered then G.ctl ^^ B.toggled else false }).modBeat g
        fun B => { B with abandoned := true, toggled := false, periodTimer := .stopped }
    else s

/-- A gang becomes held off: its drivers float, and a SEND beat in flight is abandoned. -/
def State.holdBegin (s : State) (g : GangId) : State :=
  match s.gang g with
  | none => s
  | some G => (s.setDrivers G false).abandonBeat g

/-- Does the gang drive its latched bytes continuously when not held off: MANUAL with direction OUT, or rest drive
YES (R71, R67, R109)? -/
def Gang.continuous (G : Gang) : Bool := (G.cfg.mode == .manual && G.cfg.manualOut) || G.restDrive

/-- A gang stops being held off (R106, R108, R109): an abandoned SEND beat restarts at its first step; a SEND beat
that was due begins; a gang with no job that drives continuously is enabled again. -/
def State.holdEnd (s : State) (g : GangId) : State :=
  match s.gang g with
  | none => s
  | some G =>
    match G.queue, G.beat with
    | J :: _, some B =>
      if J.dir = .send then
        if B.inFlight && B.abandoned then
          (s.modBeat g fun B => { B with abandoned := false, toggled := false }).enterFirst g
        else s.tryBegin g
      else s
    | [], _ => if G.continuous then s.setDrivers G true else s
    | _ :: _, none => s

end Sys2Proof.Machine
end

