-- ==== Sys2Proof/Machine/Restart.lean ====
section
/-! DEFINITION. What ends work silently: the teardown of a link's gangs (R134), the link reset (R155),
RESTART ENGINE (R135, R168) and the full restart (R169-R171). -/

namespace Sys2Proof.Machine

/-- The lane leaves its gang and enters the free-lane condition with its latched byte kept (R55). -/
def Lane.freed (l : Lane) : Lane := { l with gang := none, enabled := false }

/-- The lanes of the gangs `hit` become free lanes. -/
def State.freeLanes (s : State) (hit : GangId → Bool) : State :=
  { s with lanes := vecMap (fun _ l => if l.gang.any hit then l.freed else l) s.lanes }

/-- The records of the gangs `hit` are freed, with their queues, run states and beat states (R59). -/
def State.freeGangs (s : State) (hit : GangId → Bool) : State :=
  { s with gangs := vecMap (fun i o => if hit (Fin.ofNat 8 i) then none else o) s.gangs }

/-- How many of a list of jobs name a slot. -/
def countNaming (i : SlotId) (jobs : List Job) : Nat := (jobs.filter fun J => J.slot == i).length

/-- The jobs in the queues of the gangs `hit`. -/
def State.jobsOf (s : State) (hit : GangId → Bool) : List Job :=
  (s.liveJobs.filter fun e => hit e.1).map Prod.snd

/-- The gangs a link owns. -/
def State.ownedBy (s : State) (x : LinkId) (g : GangId) : Bool := (s.gang g).any fun G => G.owner == x

/-- Every job of the gangs `hit` leaves its queue: refs decreases by one for each, and all their access entries
are removed together (R38, R134). -/
def State.forgetJobs (s : State) (hit : GangId → Bool) : State :=
  let jobs := s.jobsOf hit
  { s with
    dir := vecMap
      (fun i e =>
        { e with block := e.block.map fun b =>
            { b.without hit with refs := b.refs - countNaming (Fin.ofNat 48 i) jobs } }) s.dir }

/-- The teardown of every gang a link owns (R134): jobs leave silently, records are freed, lanes become free, and
then one grant evaluation is made for each block that held an entry of theirs (R38). -/
def State.teardown (s : State) (x : LinkId) : State :=
  let hit := s.ownedBy x
  let touched := (s.blocks.filter fun e => e.2.mentions hit).map Prod.fst
  let s := ((s.forgetJobs hit).freeGangs hit).freeLanes hit
  touched.foldl State.evaluate s

/-- A link reset but for its announcement (R155 steps 1 to 6): the link's gangs are torn down, a SYNC of the other
link on one of them is answered GANG_GONE, and every field of the link returns to its value of R138. -/
def State.linkReset (s : State) (x : LinkId) : State :=
  let hit := s.ownedBy x
  let s := (s.teardown x).syncGone x.other hit
  let s := s.setLink x .init
  match x with
  | .a => s
  | .b => { s with gap := .stopped }

/-- RESTART ENGINE but for its reply and notices (R168 steps 1 and 2): every job and gang ends silently, access
records and refs are cleared without evaluation, all lanes are free with latched bytes kept, the job id counter
is 1, and a pending SYNC is answered GANG_GONE. -/
def State.engineRestart (s : State) : State :=
  let s : State :=
    { s with
      gangs := Vector.replicate 8 none
      lanes := vecMap (fun _ l => l.freed) s.lanes
      dir := vecMap
        (fun _ e =>
          { e with block := e.block.map fun b =>
              { b with readers := [], writer := none, waiters := [], refs := 0 } }) s.dir
      nextId := 1 }
  let s := (s.orphanEdges .a fun _ => true).orphanEdges .b fun _ => true
  (s.syncGone .a fun _ => true).syncGone .b fun _ => true

/-- Every state of the part takes its full-restart value (R170), but for the store bytes, which the zeroing sets
(log 11). The rate of Link B is sampled from RSEL1 and RSEL0. -/
def State.fullRestart (s : State) (rsel : Fin 4) : State :=
  { s with
    dir := Vector.replicate 48 ⟨0#8, none⟩
    free := [⟨0, 2048⟩]
    pack := .init
    lanes := Vector.replicate 10 .init
    gangs := Vector.replicate 8 none
    nextId := 1
    linkA := .init
    linkB := .init
    gap := .stopped
    rate := rateOf rsel
    silent := false }

/-- A start-up begins with a cause (R170). -/
def State.beginStartup (s : State) (cause : Cause) (rsel : Fin 4) : State :=
  { s.fullRestart rsel with mode := .starting cause }

/-- The cause of a start-up begun by power or by the release of RESETN: POWER until a start-up has ended since
power was applied, then PIN (R170). -/
def State.pinCause (s : State) : Cause := if s.started then .pin else .power

end Sys2Proof.Machine
end

