-- ==== Sys2Proof/Machine/DeviceRequests.lean ====
section
/-! DEFINITION. The requests of the device area: HELLO, SUMMARY, RESTART, DETACH, SYNC, and a request whose code is
not known. -/

namespace Sys2Proof.Machine

/-- A payload with no fields (R161). -/
def noFields (p : List Byte) : Bool := p.isEmpty

/-- HELLO's reply fields (R165). -/
def helloFields (x : LinkId) : List Byte :=
  u16 0x2410 ++ u8 0x41 ++ u8 (linkNum x) ++ u16 2048 ++ u8 10 ++ u8 8 ++ u8 48 ++ u8 6 ++ u8 232

/-- HELLO (R165). -/
def execHello (x : LinkId) (s : State) : Host.Outcome State Fault Refusal :=
  .next (s.serve x Code.hello noFields fun _ s => .ok (helloFields x) s)

/-- SUMMARY's reply fields (R166). -/
def State.summaryFields (s : State) : List Byte :=
  u8 s.formed.length ++ u8 s.liveJobs.length ++ u8 s.blocks.length ++ u16 (freeGranules s.free) ++
    u16 (largestExtent s.free) ++ u8 s.pack.state.num

/-- SUMMARY (R166). -/
def execSummary (x : LinkId) (s : State) : Host.Outcome State Fault Refusal :=
  .next (s.serve x Code.summary noFields fun _ s => .ok s.summaryFields s)

/-- RESTART with scope ENGINE taken on link `x` (R168): the engines restart, the reply carries the jobs ended and
the gangs freed, and STARTED is queued on Link A and on Link B. -/
def State.doRestartEngine (s : State) (x : LinkId) (r : Request) : State :=
  let fields := u8 s.liveJobs.length ++ u8 s.formed.length
  let s := answer x r s (.ok fields s.engineRestart)
  (s.notify .a (.started .engine (requestCause x))).notify .b (.started .engine (requestCause x))

/-- The refusal of a RESTART whose payload is neither scope (R161, R167). -/
def restartRefusal (p : List Byte) : Answer :=
  .refuse (if p.length = 1 then .badField else .badLength)

/-- RESTART_ENGINE (R168). A RESTART that is refused is taken under this row or under RESTART_ALL (log 6). -/
def execRestartEngine (x : LinkId) (s : State) : Host.Outcome State Fault Refusal :=
  .next (s.take x (fun r => r.code == Code.restart && r.payload != [1#8]) fun r s =>
    if r.payload = [0#8] then s.doRestartEngine x r else answer x r s (restartRefusal r.payload))

/-- RESTART_ALL (R169): no reply; every activity ends and a start-up begins with the cause of the link. -/
def execRestartAll (x : LinkId) (rsel : Fin 4) (s : State) : Host.Outcome State Fault Refusal :=
  .next (s.take x (fun r => r.code == Code.restart && r.payload != [0#8]) fun r s =>
    if r.payload = [1#8] then s.beginStartup (requestCause x) rsel
    else answer x r s (restartRefusal r.payload))

/-- DETACH (R154, R155): the link reset, then the reply OK, then STARTED with scope LINK. -/
def execDetach (x : LinkId) (s : State) : Host.Outcome State Fault Refusal :=
  .next (s.take x (fun r => r.code == Code.detach) fun r s =>
    if noFields r.payload then
      ((s.linkReset x).pushReply x ⟨r.tag, r.code, [statusOk]⟩).notify x (.started .link .detach)
    else answer x r s (.refuse .badLength))

/-- A SYNC that passes on a gang whose queue is not empty becomes pending, with a reservation at the tail of the
reply queue and its timer started (R152). -/
def State.holdSync (s : State) (x : LinkId) (tag : Byte) (g : GangId) (timeout : Nat) : State :=
  s.modLink x fun l =>
    { l with sync := some ⟨tag, g, .running timeout⟩, replies := l.replies ++ [.reservation] }

/-- SYNC (R152). -/
def execSync (x : LinkId) (s : State) : Host.Outcome State Fault Refusal :=
  .next (s.take x (fun r => r.code == Code.sync) fun r s =>
    if r.payload.length = 3 then
      match s.gangAt (byteAt r.payload 0) with
      | none => answer x r s (.refuse .noSuchGang)
      | some (g, G) =>
        let timeout := be16 r.payload 1
        if timeout = 0 ∨ 60000 < timeout then answer x r s (.refuse .badField)
        else if G.queue.isEmpty then answer x r s (.ok (u8 g.val ++ u8 G.last.num) s)
        else s.holdSync x r.tag g timeout
    else answer x r s (.refuse .badLength))

/-- A request whose code is not in the table of R159 is refused UNKNOWN_REQUEST. -/
def execUnknownRequest (x : LinkId) (s : State) : Host.Outcome State Fault Refusal :=
  .next (s.take x (fun r => !Code.known r.code) fun r s => answer x r s (.refuse .unknownRequest))

end Sys2Proof.Machine
end

