-- ==== Sys2Proof/Machine/GangRequests.lean ====
section
/-! DEFINITION. The requests of the gangs area (R61-R75). -/

namespace Sys2Proof.Machine

/-- The existence and ownership checks of the requests that change a gang (R61). -/
def ownedGang (x : LinkId) (p : List Byte) (s : State) (f : GangId → Gang → Answer) : Answer :=
  match s.gangAt (byteAt p 0) with
  | none => .refuse .noSuchGang
  | some (g, G) => if G.owner ≠ x then .refuse .notOwner else f g G

/-! ## FORM and DISSOLVE (R62, R63) -/

/-- The record FORM creates (R59): every field but the lanes and the owner takes its default, and the watched level
is the logical FLG level at that moment. -/
def newGang (x : LinkId) (first : LaneId) (width : Nat) (watched : Bool) : Gang :=
  { owner := x, first := first, width := width, cfg := .init, time := .init, ctl := false, restDrive := false,
    watched := watched, run := .running, last := .none, queue := [], beat := none }

/-- Do any of the lanes `first` .. `first + width - 1` belong to a gang? -/
def State.laneTaken (s : State) (first width : Nat) : Bool :=
  (List.finRange 10).any fun i =>
    decide (first ≤ i.val ∧ i.val < first + width) && s.lanes[i].gang.isSome

/-- The new gang and its lanes (R62). -/
def State.formGang (s : State) (g : GangId) (G : Gang) : State :=
  (s.setGang g (some G)).modLanes G fun _ l => { l with gang := some g, enabled := false }

/-- FORM's checks in the order of R62, and its effect. -/
def formRule (x : LinkId) (first width : Nat) (s : State) : Answer :=
  if h : first < 10 then
    if width = 0 ∨ 10 < first + width then .refuse .badField
    else if s.laneTaken first width then .refuse .laneTaken
    else
      match s.freeGang with
      | none => .refuse .gangTableFull
      | some g =>
        .ok (u8 g.val ++ u8 first ++ u8 width)
          (s.formGang g (newGang x ⟨first, h⟩ width s.pins[first].flg))
  else .refuse .badField

/-- FORM (R62). -/
def execForm (x : LinkId) (s : State) : Host.Outcome State Fault Refusal :=
  .next (s.serve x Code.form (fun p => p.length == 2) fun p s => formRule x (byteAt p 0) (byteAt p 1) s)

/-- The gang's slot is free and its lanes are free lanes; a waiting FLAG_EDGE notice stays (R63, R178). -/
def State.dissolve (s : State) (g : GangId) (G : Gang) : State :=
  ((s.setGang g none).modLanes G fun _ l => l.freed).orphanEdges G.owner (· == g)

/-- DISSOLVE (R63). -/
def execDissolve (x : LinkId) (s : State) : Host.Outcome State Fault Refusal :=
  .next (s.serve x Code.dissolve (fun p => p.length == 1) fun p s =>
    ownedGang x p s fun g G =>
      if !G.queue.isEmpty then .refuse .gangBusy else .ok (u8 g.val) (s.dissolve g G))

/-! ## CONFIGURE (R64, R65) -/

/-- The twelve configuration fields of a CONFIGURE payload, if each is in its range (R59, R64). -/
def readConfig (p : List Byte) : Option GangConfig :=
  match Mode.ofNum (byteAt p 1) with
  | none => none
  | some mode =>
    if (p.drop 2).all fun b => decide (b.toNat ≤ 1) then
      let on := fun i => byteAt p i == 1
      some
        { mode := mode, manualOut := on 2, descending := on 3, dataNeg := on 4, ctlNeg := on 5, flgNeg := on 6,
          openDrain := on 7, pullUps := on 8, holdOff := on 9, restHold := on 10, watch := on 11,
          flagGate := on 12 }
    else none

/-- The twelve configuration fields in the order of CONFIGURE (R64). -/
def GangConfig.fields (c : GangConfig) : List Byte :=
  u8 c.mode.num ++ flagByte c.manualOut ++ flagByte c.descending ++ flagByte c.dataNeg ++ flagByte c.ctlNeg ++
    flagByte c.flgNeg ++ flagByte c.openDrain ++ flagByte c.pullUps ++ flagByte c.holdOff ++ flagByte c.restHold ++
    flagByte c.watch ++ flagByte c.flagGate

/-- CLOCKED requires settle and pulse each to be less than the period (R70). -/
def clockedTimingOk (t : GangTiming) : Bool := decide (t.settle < t.period ∧ t.pulse < t.period)

/-- Does rest drive stay YES through a CONFIGURE (R65)? -/
def restDriveAfter (G : Gang) (c : GangConfig) : Bool :=
  G.restDrive && G.cfg.mode != .manual && c.mode != .manual && c.restHold

/-- The record after a CONFIGURE that passes (R64, R65): `flg` is the level of the first lane's FLG pin. -/
def Gang.configured (G : Gang) (c : GangConfig) (flg : Bool) : Gang :=
  { G with
    cfg := c
    restDrive := restDriveAfter G c
    ctl := if G.cfg.mode = .manual ∧ c.mode ≠ .manual then false else G.ctl
    watched := flg ^^ c.flgNeg }

/-- CONFIGURE acts on the lines as R65 states: the drivers are enabled when the gang as configured drives
continuously and is not held off under the new enable. -/
def State.configureGang (s : State) (g : GangId) (G : Gang) (c : GangConfig) : State :=
  let G' := G.configured c s.pins[G.first].flg
  (s.setGang g (some G')).setDrivers G' (G'.continuous && !s.heldOff G')

/-- CONFIGURE (R64). -/
def execConfigure (x : LinkId) (s : State) : Host.Outcome State Fault Refusal :=
  .next (s.serve x Code.configure (fun p => p.length == 13) fun p s =>
    ownedGang x p s fun g G =>
      match readConfig p with
      | none => .refuse .badField
      | some c =>
        if !G.queue.isEmpty then .refuse .gangBusy
        else if c.mode = .clocked ∧ !clockedTimingOk G.time then .refuse .timingConflict
        else .ok c.fields (s.configureGang g G c))

/-! ## TIMING (R68, R69) -/

/-- `t` rounded up to a multiple of `step`. -/
def roundUp (step t : Nat) : Nat := step * ((t + step - 1) / step)

/-- The smallest member of the representable set that is not less than `t` (R68). -/
def appliedTime (t : Nat) : Nat :=
  if t ≤ 9900 then roundUp 100 t
  else if t ≤ 99000 then roundUp 1000 t
  else if t ≤ 990000 then roundUp 10000 t
  else roundUp 100000 t

/-- Is a requested settle, pulse or period in its range (R68)? -/
def timeInRange (t : Nat) : Bool := decide (1 ≤ t ∧ t ≤ 9900000)

/-- The applied values of a TIMING payload (R69). -/
def readTiming (p : List Byte) : GangTiming :=
  { settle := appliedTime (be32 p 1), pulse := appliedTime (be32 p 5), period := appliedTime (be32 p 9),
    timeout := be16 p 13 }

/-- The four timing fields of a reply (R69). -/
def GangTiming.fields (t : GangTiming) : List Byte := u32 t.settle ++ u32 t.pulse ++ u32 t.period ++ u16 t.timeout

/-- Are the four fields of a TIMING payload in range (R69)? -/
def timingFieldsOk (p : List Byte) : Bool :=
  timeInRange (be32 p 1) && timeInRange (be32 p 5) && timeInRange (be32 p 9) && decide (be16 p 13 ≤ 60000)

/-- TIMING (R69). -/
def execTiming (x : LinkId) (s : State) : Host.Outcome State Fault Refusal :=
  .next (s.serve x Code.timing (fun p => p.length == 15) fun p s =>
    ownedGang x p s fun g G =>
      if !timingFieldsOk p then .refuse .badField
      else if !G.queue.isEmpty then .refuse .gangBusy
      else if G.cfg.mode = .clocked ∧ !clockedTimingOk (readTiming p) then .refuse .timingConflict
      else .ok (readTiming p).fields (s.setGang g (some { G with time := readTiming p })))

/-! ## GANG-STATUS (R75) -/

/-- GANG-STATUS's reply fields in the order of R75 (their layout: log 14), and behind them the active job's beats done,
which R78 says GANG-STATUS reports and R75 gives no place (log 26). An empty queue gives id 0 and state 0 (R133). -/
def State.gangStatusFields (s : State) (g : GangId) (G : Gang) : List Byte :=
  u8 g.val ++ u8 (linkNum G.owner) ++ u8 G.first.val ++ u8 G.width ++ G.cfg.fields ++ G.time.fields ++
    u8 G.run.num ++ u8 G.last.num ++ u8 G.queue.length ++
    u16 ((G.queue.head?.map Job.id).getD 0) ++ u8 ((G.queue.head?.map fun J => J.state.num).getD 0) ++
    flagByte G.ctl ++ flagByte (s.flg G) ++ flagByte (s.heldOff G) ++ flagByte (s.driving G) ++
    flagByte G.restDrive ++ u32 ((G.beat.map Beat.done).getD 0)

/-- GANG-STATUS (R75). -/
def execGangStatus (x : LinkId) (s : State) : Host.Outcome State Fault Refusal :=
  .next (s.serve x Code.gangStatus (fun p => p.length == 1) fun p s =>
    match s.gangAt (byteAt p 0) with
    | none => .refuse .noSuchGang
    | some (g, G) => .ok (s.gangStatusFields g G) s)

/-! ## MANUAL line access (R71-R74) -/

/-- SET-LINES latches one byte on each lane in lane order, and drives them when the direction is OUT and the gang is
not held off (R72). -/
def State.latchLines (s : State) (G : Gang) (bytes : List Byte) (drive : Bool) : State :=
  s.modLanes G fun i l =>
    { l with latched := bytes.getD (G.byteOf i) 0x00#8, enabled := drive || l.enabled }

/-- SET-LINES (R72). -/
def execSetLines (x : LinkId) (s : State) : Host.Outcome State Fault Refusal :=
  .next (s.serve x Code.setLines (fun p => decide (1 ≤ p.length ∧ p.length ≤ 11)) fun p s =>
    ownedGang x p s fun _ G =>
      if p.length - 1 ≠ G.width then .refuse .badField
      else if G.cfg.mode ≠ .manual then .refuse .modeConflict
      else
        let drive := G.cfg.manualOut && !s.heldOff G
        .ok (flagByte drive) (s.latchLines G (p.drop 1) drive))

/-- A lane entry of GET-LINES (R74). -/
def State.laneEntry (s : State) (G : Gang) (i : LaneId) : List Byte :=
  u8 i.val ++ [s.lanes[i].latched, s.sensed G i] ++ flagByte (s.ctlPin i) ++ flagByte s.pins[i].flg ++
    flagByte s.pins[i].hold

/-- GET-LINES's reply fields (R74); the lane entries are a list of varying length (log 13). -/
def State.getLinesFields (s : State) (G : Gang) : List Byte :=
  flagByte G.ctl ++ flagByte (s.flg G) ++ flagByte (s.heldOff G) ++ flagByte (s.driving G) ++
    listField (s.laneEntry G) G.beatLanes

/-- GET-LINES (R74), with the board's data levels at that moment (log 8). -/
def execGetLines (x : LinkId) (board : Board) (s : State) : Host.Outcome State Fault Refusal :=
  .next (s.serve x Code.getLines (fun p => p.length == 1) fun p s =>
    match s.gangAt (byteAt p 0) with
    | none => .refuse .noSuchGang
    | some (_, G) => .ok ((s.senseBoard board).getLinesFields G) (s.senseBoard board))

/-- SET-CONTROL (R73). -/
def execSetControl (x : LinkId) (s : State) : Host.Outcome State Fault Refusal :=
  .next (s.serve x Code.setControl (fun p => p.length == 2) fun p s =>
    ownedGang x p s fun g G =>
      if 1 < byteAt p 1 then .refuse .badField
      else if G.cfg.mode ≠ .manual then .refuse .modeConflict
      else .ok (u8 (byteAt p 1)) (s.setCtl g (byteAt p 1 == 1)))

end Sys2Proof.Machine
end

