-- ==== Sys2Proof/Machine/JobRequests.lean ====
section
/-! DEFINITION. The requests of the jobs area (R116-R133). -/

namespace Sys2Proof.Machine

/-! ## Job numbering (R116) -/

/-- The id after `c`: from 65535 it is 1. -/
def nextCandidate (c : Nat) : Nat := if 65535 ≤ c then 1 else c + 1

/-- The first candidate from `c` that is no live job's id; at most `fuel` candidates are passed over. -/
def firstFreeId (live : List Nat) : Nat → Nat → Nat
  | 0, c => c
  | fuel + 1, c => if live.contains c then firstFreeId live fuel (nextCandidate c) else c

/-- The ids of the live jobs. -/
def State.liveIds (s : State) : List Nat := s.liveJobs.map fun e => e.2.id

/-- The id that job numbering issues next: at most 48 jobs are live, so at most 48 candidates are passed over. -/
def State.issueId (s : State) : Nat := firstFreeId s.liveIds 48 s.nextId

/-! ## SUBMIT (R117-R120) -/

/-- SUBMIT's fields after the gang and the handle (R117). -/
structure SubmitFields where
  dir : Nat
  offset : Nat
  beats : Nat
  repeats : Nat
  afterOk : Nat
  quiet : Nat
  deriving DecidableEq, Repr

/-- SUBMIT's payload: gang, direction, handle, offset, beats, repeats, after_ok, quiet (R161). -/
def readSubmit (p : List Byte) : SubmitFields :=
  { dir := byteAt p 1, offset := be32 p 4, beats := be16 p 8, repeats := byteAt p 10, afterOk := byteAt p 11,
    quiet := byteAt p 12 }

/-- BAD_FIELD of SUBMIT (R117 check 4) does not apply. -/
def SubmitFields.inRange (f : SubmitFields) : Bool :=
  decide (f.dir ≤ 1 ∧ f.offset ≤ 131071 ∧ f.repeats ≠ 0 ∧ ¬(1 < f.repeats ∧ f.dir = 1) ∧ f.afterOk ≤ 1 ∧
    f.quiet ≤ 1)

/-- The beats of a job resolved from the request, the block's size and the gang's width (R118). -/
def resolveBeats (size offset width beats : Nat) : Nat :=
  if beats = 0 then min 65535 ((size - offset) / width) else beats

/-- The range of R118 lies within the block. -/
def rangeOk (size offset width beats : Nat) : Bool := decide (beats ≠ 0 ∧ offset + beats * width ≤ size)

/-- The direction of its number. -/
def directionOf (n : Nat) : Direction := if n = 0 then .send else .capture

/-- The record SUBMIT creates (R114). -/
def newJob (id : Nat) (f : SubmitFields) (slot : SlotId) (gen : Byte) (beats : Nat) : Job :=
  { id := id, dir := directionOf f.dir, slot := slot, gen := gen, offset := f.offset, beats := beats,
    repeats := f.repeats, afterOk := f.afterOk == 1, quiet := f.quiet == 1, state := .queued }

/-- SUBMIT's acceptance (R119): the id is issued, refs increases, the job joins the tail of the queue, and it is
activated at once if the queue was empty. -/
def State.accept (s : State) (g : GangId) (J : Job) (wasEmpty : Bool) : State :=
  let s : State := { s with nextId := nextCandidate J.id }
  let s := s.modBlock J.slot fun b => { b with refs := b.refs + 1 }
  let s := s.modGang g fun G => { G with queue := G.queue ++ [J] }
  if wasEmpty then s.activate g else s

/-- SUBMIT's checks in the order of R117, and its effect. -/
def submitRule (x : LinkId) (p : List Byte) (s : State) : Answer :=
  match s.gangAt (byteAt p 0) with
  | none => .refuse .noSuchGang
  | some (g, G) =>
    match s.resolveAt p 2 with
    | none => .refuse .noSuchBlock
    | some (i, b) =>
      let f := readSubmit p
      let beats := resolveBeats b.size f.offset G.width f.beats
      if G.owner ≠ x then .refuse .notOwner
      else if !f.inRange then .refuse .badField
      else if G.cfg.mode = .manual then .refuse .modeConflict
      else if !rangeOk b.size f.offset G.width beats then .refuse .rangeOutsideBlock
      else if queueCap ≤ G.queue.length then .refuse .queueFull
      else if f.afterOk = 1 ∧ G.queue.isEmpty ∧ G.last ≠ .done then .refuse .chainBroken
      else
        let J := newJob s.issueId f i (s.dir[i].gen) beats
        .ok (u16 J.id ++ u16 beats ++ u8 (G.queue.length + 1)) (s.accept g J G.queue.isEmpty)

/-- SUBMIT (R117, R119). -/
def execSubmit (x : LinkId) (s : State) : Host.Outcome State Fault Refusal :=
  .next (s.serve x Code.submit (fun p => p.length == 13) (submitRule x))

/-! ## CANCEL (R128) -/

/-- A live job found in its gang's queue, with the jobs ahead of it and behind it. -/
structure Found where
  gang : GangId
  record : Gang
  before : List Job
  job : Job
  behind : List Job
  deriving DecidableEq, Repr

/-- Split a queue at the job with an id. -/
def splitAtId (id : Nat) : List Job → Option (List Job × Job × List Job)
  | [] => none
  | J :: rest =>
    if J.id = id then some ([], J, rest)
    else (splitAtId id rest).map fun r => (J :: r.1, r.2.1, r.2.2)

/-- The live job with an id; there is none with id 0 (R128, R133). -/
def State.findJob (s : State) (id : Nat) : Option Found :=
  if id = 0 then none
  else s.formed.findSome? fun e => (splitAtId id e.2.queue).map fun r => ⟨e.1, e.2, r.1, r.2.1, r.2.2⟩

/-- Beats done of a found job: the beat state's for the active job, 0 behind the head (R78, R114). -/
def Found.done (f : Found) : Nat := if f.before.isEmpty then (f.record.beat.map Beat.done).getD 0 else 0

/-- A job is cancelled (R128): its beat is ended and CTL deasserted if it is the active job (R100), and it
departs. -/
def State.cancelJob (s : State) (f : Found) : State :=
  if f.before.isEmpty then (s.setCtl f.gang false).departHead f.gang .cancelled none
  else s.departQueued f.gang f.before f.job f.behind

/-- CANCEL (R128). -/
def execCancel (x : LinkId) (s : State) : Host.Outcome State Fault Refusal :=
  .next (s.serve x Code.cancel (fun p => p.length == 2) fun p s =>
    match s.findJob (be16 p 0) with
    | none => .refuse .noSuchJob
    | some f =>
      if f.record.owner ≠ x then .refuse .notOwner
      else .ok (u16 f.job.id ++ u32 f.done) (s.cancelJob f))

/-! ## HALT (R129) -/

/-- HALT of a queue that is not empty (R129): the jobs behind the head leave from the tail, each with refs decreased
and the last outcome CANCELLED; then the head's beat is ended, CTL is deasserted and it departs. -/
def State.haltGang (s : State) (g : GangId) (head : Job) (behind : List Job) : State :=
  let s := behind.foldr (fun K s => (s.unref K.slot).setLast g .cancelled) s
  let s := s.modGang g fun G => { G with queue := [head], ctl := false }
  s.departHead g .cancelled none

/-- HALT (R129). -/
def execHalt (x : LinkId) (s : State) : Host.Outcome State Fault Refusal :=
  .next (s.serve x Code.halt (fun p => p.length == 1) fun p s =>
    match s.gangAt (byteAt p 0) with
    | none => .refuse .noSuchGang
    | some (g, G) =>
      if G.owner ≠ x then .refuse .notOwner
      else
        match G.queue with
        | [] => .ok (u8 0) s
        | J :: behind => .ok (u8 G.queue.length) (s.haltGang g J behind))

/-! ## PAUSE and RESUME (R130, R132) -/

/-- Is a beat in flight, abandoned or not? -/
def Gang.inFlight (G : Gang) : Bool := G.beat.any Beat.inFlight

/-- PAUSE's effect by run state (R130). -/
def State.pauseGang (s : State) (g : GangId) (G : Gang) : State :=
  match G.run with
  | .pausing => s
  | .paused => s
  | .running =>
    if G.inFlight then s.modGang g fun G => { G with run := .pausing }
    else
      let s := s.modGang g fun G => { G with run := .paused }
      match G.queue with
      | [] => s
      | J :: _ => if J.state = .running then s.setJobState g .paused else s

/-- The run state of a gang slot, as a reply's byte. -/
def State.runByte (s : State) (g : GangId) : List Byte := u8 (((s.gang g).map fun G => G.run.num).getD 0)

/-- PAUSE (R130). -/
def execPause (x : LinkId) (s : State) : Host.Outcome State Fault Refusal :=
  .next (s.serve x Code.pause (fun p => p.length == 1) fun p s =>
    match s.gangAt (byteAt p 0) with
    | none => .refuse .noSuchGang
    | some (g, G) =>
      if G.owner ≠ x then .refuse .notOwner
      else .ok ((s.pauseGang g G).runByte g) (s.pauseGang g G))

/-- RESUME's effect by run state (R132): the run state becomes RUNNING, a PAUSED active job becomes RUNNING, and a
beat begins if it may. -/
def State.resumeGang (s : State) (g : GangId) (G : Gang) : State :=
  match G.run with
  | .running => s
  | .pausing => s.modGang g fun G => { G with run := .running }
  | .paused =>
    let s := s.modGang g fun G => { G with run := .running }
    match G.queue with
    | [] => s
    | J :: _ => if J.state = .paused then (s.setJobState g .running).tryBegin g else s

/-- RESUME (R132). -/
def execResume (x : LinkId) (s : State) : Host.Outcome State Fault Refusal :=
  .next (s.serve x Code.resume (fun p => p.length == 1) fun p s =>
    match s.gangAt (byteAt p 0) with
    | none => .refuse .noSuchGang
    | some (g, G) =>
      if G.owner ≠ x then .refuse .notOwner
      else .ok (u8 RunState.running.num) (s.resumeGang g G))

/-! ## JOB-STATUS (R133) -/

/-- The beat state JOB-STATUS reports: the active job's, or the values of a QUEUED job (R133). -/
def Found.beat (f : Found) : Beat := if f.before.isEmpty then f.record.beat.getD .init else .init

/-- JOB-STATUS's reply fields (R133, section 9.6). -/
def Found.fields (f : Found) : List Byte :=
  let J := f.job
  u16 J.id ++ u8 f.gang.val ++ u8 J.dir.num ++ (u8 J.slot.val ++ [J.gen]) ++ u32 J.offset ++ u16 J.beats ++
    u8 J.repeats ++ flagByte J.afterOk ++ flagByte J.quiet ++ u8 J.state.num ++ u8 (f.before.length + 1) ++
    u32 f.done ++ u8 f.beat.rep ++ u16 f.beat.index

/-- JOB-STATUS (R133). -/
def execJobStatus (x : LinkId) (s : State) : Host.Outcome State Fault Refusal :=
  .next (s.serve x Code.jobStatus (fun p => p.length == 2) fun p s =>
    match s.findJob (be16 p 0) with
    | none => .refuse .noSuchJob
    | some f => .ok f.fields s)

end Sys2Proof.Machine
end

