-- ==== Sys2Proof/Machine/LinkEvents.lean ====
section
/-! DEFINITION. The events at the links: reception (R139, R141, R144-R148), transmission (R151), the break (R141,
R155) and the timer of a pending SYNC (R153). -/

namespace Sys2Proof.Machine

/-! ## The transmitter (R151) -/

/-- The frame the transmitter begins next and the link without it in its queue: the reply at the head of the reply
queue, else the oldest notice (R151). -/
def Link.nextFrame (l : Link) : Option (List Byte × Link) :=
  match l.replies with
  | .reply r :: rest => some (r.frame, { l with replies := rest })
  | _ =>
    match l.notices with
    | n :: rest => some (n.frame, { l with notices := rest })
    | [] => none

/-- The link once a frame can begin: with no outbound frame, the next frame, if one waits, leaves its queue and becomes it
(R151). -/
def Link.begun (l : Link) : Link :=
  match l.outbound, l.nextFrame with
  | none, some (frame, l') => { l' with outbound := some ⟨frame, 0⟩ }
  | _, _ => l

/-! ## The parser (R144) -/

/-- What a byte handed to the parser does: it oversteps the length, completes the frame, or neither. -/
inductive ByteRole where
  | plain
  | oversize
  | completes
  deriving DecidableEq, Repr

/-- The largest payload (R142). -/
def payloadCap : Nat := 232

/-- The role of a byte for a link's parser (R144). -/
def byteRole (l : Link) (b : Byte) : ByteRole :=
  match l.parser with
  | .hunting => .plain
  | .header => if l.buffer.length = 4 ∧ payloadCap < b.toNat then .oversize else .plain
  | .payload => .plain
  | .crc => if l.buffer.length = 6 + byteAt l.buffer 4 then .completes else .plain

/-- The parser state after it has stored a byte that completes nothing; `buffer` holds that byte (R144). -/
def parserAfter (p : ParserState) (buffer : List Byte) : ParserState :=
  match p with
  | .hunting => .header
  | .header => if buffer.length = 5 then (if byteAt buffer 4 = 0 then .crc else .payload) else .header
  | .payload => if buffer.length = 5 + byteAt buffer 4 then .crc else .payload
  | .crc => .crc

/-- The gap timer's time, in milliseconds (R146). -/
def gapTime : Nat := 10

/-- The parser takes a state with a frame buffer; on Link B the gap timer is started at each byte stored and stopped
on the return to HUNTING (R144, R146). -/
def State.setParser (s : State) (x : LinkId) (p : ParserState) (buffer : List Byte) : State :=
  let s := s.modLink x fun l => { l with parser := p, buffer := buffer }
  match x with
  | .a => s
  | .b => { s with gap := if p = .hunting then .stopped else .running gapTime }

/-- The frame being received ends: the parser is HUNTING with an empty buffer. -/
def State.endFrame (s : State) (x : LinkId) : State := s.setParser x .hunting []

/-- Do bytes reach the parser of a link? Not during a start-up, in reset or without power (R157, R171), and not on
Link B after a break until the line has returned high (R141). -/
def State.receiving (s : State) : LinkId → Bool
  | .a => s.ready
  | .b => s.ready && !s.silent

/-- The outbound frame once one more of its bytes has been sent: absent after its last byte (R151). -/
def Outbound.sendOne (o : Outbound) : Option Outbound :=
  if o.sent + 1 < o.frame.length then some { o with sent := o.sent + 1 } else none

/-- The fill byte of Link A (R139, R157). -/
def fillByte : Byte := 0x00#8

/-- The byte Link A has ready for the exchange that comes: the next unsent byte of its outbound frame, else the fill
byte (R139). -/
def Link.readyByte (l : Link) : Byte :=
  match l.outbound with
  | none => fillByte
  | some o => o.frame.getD o.sent fillByte

/-- The link after a byte exchange of Link A: the frame that the transmitter begins at that exchange, if no frame was
outbound, and one byte of it sent (R139, R151). -/
def Link.exchanged (l : Link) : Link := { l.begun with outbound := l.begun.outbound.bind Outbound.sendOne }

/-- A byte exchange on Link A happens with SSEL asserted and sends one byte on SDO (R139, log 7): a byte of a frame when
the part is ready, the fill byte during a start-up (R157) and, by the model's choice, while RESETN is held; without
power SDO is not driven (R171, log 25). -/
def State.exchange (s : State) : LinkId → State
  | .a =>
    let s : State := { s with ssel := true }
    match s.mode with
    | .ready => ({ s with sdo := some s.linkA.begun.readyByte } : State).modLink .a Link.exchanged
    | .starting _ | .held => { s with sdo := some fillByte }
    | .off => { s with sdo := none }
  | .b => s

/-- A byte that completes no frame: discarded while HUNTING unless it is the sync byte, else stored (R144). -/
def State.storeByte (s : State) (x : LinkId) (b : Byte) : State :=
  let l := s.link x
  if l.parser = .hunting then
    if b = syncByte then s.setParser x .header [b] else s
  else s.setParser x (parserAfter l.parser (l.buffer ++ [b])) (l.buffer ++ [b])

/-- BYTE_RECEIVED (R144): a byte that neither completes a frame nor oversteps the length. -/
def execByteReceived (x : LinkId) (b : Byte) (s : State) : Host.Outcome State Fault Refusal :=
  .next (if byteRole (s.link x) b = .plain then
    let s' := s.exchange x
    if s.receiving x then s'.storeByte x b else s'
  else s)

/-- LENGTH_OVERSIZE (R144): the frame is discarded with the link fault OVERSIZE. -/
def execLengthOversize (x : LinkId) (b : Byte) (s : State) : Host.Outcome State Fault Refusal :=
  .next (if s.receiving x && byteRole (s.link x) b == .oversize then
    ((s.exchange x).endFrame x).linkFault x .oversize
  else s)

/-! ## Complete frames and the intake (R145, R148) -/

/-- An immediate refusal: its reply is queued at once, or, with the reply queue full, the request is discarded with
the link fault OVERFLOW (R148). -/
def State.refuseAtOnce (s : State) (x : LinkId) (r : Request) (st : Status) : State :=
  if (s.link x).replies.length < replyCap then s.pushReply x ⟨r.tag, r.code, [st.code]⟩
  else s.linkFault x .overflow

/-- Is a tag in use by a request of the intake or by the pending SYNC (R148)? -/
def Link.tagInUse (l : Link) (tag : Byte) : Bool :=
  l.intake.any (fun q => q.tag == tag) || l.sync.any fun p => p.tag == tag

/-- A good request is offered to the intake (R148). -/
def State.offer (s : State) (x : LinkId) (r : Request) : State :=
  if (s.link x).tagInUse r.tag then s.refuseAtOnce x r .duplicateTag
  else if intakeCap ≤ (s.link x).intake.length then s.refuseAtOnce x r .intakeFull
  else s.modLink x fun l => { l with intake := l.intake ++ [r] }

/-- The request a frame carries: its tag, its code and its payload (R142). -/
def frameRequest (frame : List Byte) : Request :=
  { tag := frame.getD 2 0x00#8, code := frame.getD 3 0x00#8, payload := (frame.drop 5).take (byteAt frame 4) }

/-- Does a frame's check word match the bytes 1 .. 4 + L (R143)? -/
def checkOk (frame : List Byte) : Bool :=
  checkBytes ((frame.drop 1).take (4 + byteAt frame 4)) == frame.drop (5 + byteAt frame 4)

/-- A complete frame is checked for its check word, then for its kind, and a good request is offered (R145). -/
def State.frameComplete (s : State) (x : LinkId) (frame : List Byte) : State :=
  if !checkOk frame then s.linkFault x .check
  else if frame.getD 1 0x00#8 ≠ 1#8 then s.linkFault x .kind
  else s.offer x (frameRequest frame)

/-- FRAME_RECEIVED (R145): the second check byte arrives, and the frame in the buffer is complete. -/
def execFrameReceived (x : LinkId) (b : Byte) (s : State) : Host.Outcome State Fault Refusal :=
  .next (if s.receiving x && byteRole (s.link x) b == .completes then
    ((s.exchange x).endFrame x).frameComplete x ((s.link x).buffer ++ [b])
  else s)

/-! ## Frames ended early (R146) -/

/-- The frame in progress is ended with the link fault TRUNCATED; while HUNTING there is none (R146). -/
def State.truncate (s : State) (x : LinkId) : State :=
  if (s.link x).parser = .hunting then s else (s.endFrame x).linkFault x .truncated

/-- GAP_TIMER_EXPIRY (R146): Link B's gap timer runs out. -/
def execGapTimerExpiry (s : State) : Host.Outcome State Fault Refusal :=
  .next (if s.ready && s.gap.isRunning then ({ s with gap := .stopped } : State).truncate .b else s)

/-- SSEL_DEASSERTED (R139, R146): it ends an inbound frame of Link A and leaves the outbound frame as it is; SDO is no
longer driven. -/
def execSselDeasserted (s : State) : Host.Outcome State Fault Refusal :=
  let s' : State := { s with ssel := false, sdo := none }
  .next (if s.ready then s'.truncate .a else s')

/-! ## The transmitter's rows (R151) -/

/-- TRANSMIT_BEGIN (R151): with no outbound frame, the oldest reply or else the oldest notice becomes it. On Link A the
byte exchange that sends its first byte begins it where this row did not (log 7). -/
def execTransmitBegin (x : LinkId) (s : State) : Host.Outcome State Fault Refusal :=
  .next (if s.ready then s.modLink x Link.begun else s)

/-- TRANSMIT_END (R151): the last byte of the outbound frame has been sent, and it is absent (log 7). -/
def execTransmitEnd (x : LinkId) (s : State) : Host.Outcome State Fault Refusal :=
  .next (if s.ready then s.modLink x fun l => { l with outbound := none } else s)

/-! ## The break of Link B (R141) -/

/-- BREAK (R141, R154, R155): the line has been low for 5 ms. The receiver is then silent until the line returns
high; a line that is still low from an earlier break makes no second one (log 20). -/
def execBreakDetected (s : State) : Host.Outcome State Fault Refusal :=
  .next (if s.ready && !s.silent then
    ({ s.linkReset .b with silent := true } : State).notify .b (.started .link .break_)
  else s)

/-- BREAK_END (R141): the line has returned high. -/
def execBreakEnd (s : State) : Host.Outcome State Fault Refusal :=
  .next { s with silent := false }

/-! ## The timer of a pending SYNC (R153) -/

/-- SYNC_TIMER_EXPIRY (R153): the reservation becomes the reply SYNC_TIMEOUT with the gang number. -/
def execSyncTimerExpiry (x : LinkId) (s : State) : Host.Outcome State Fault Refusal :=
  .next (if s.ready then
    s.resolveSyncOf x (fun _ => true) fun g => Status.syncTimeout.code :: u8 g.val
  else s)

end Sys2Proof.Machine
end

