-- ==== Sys2Proof/Machine/PackUnit.lean ====
section
/-! DEFINITION. The pack unit: PACK (R40), STOP-PACK (R48), visits (R41-R43), the completion of a move (R45) and the
end of a pack (R49). -/

namespace Sys2Proof.Machine

/-- PACK (R40): the requesting link, the cursor and the counts are set, and the state becomes RUNNING. -/
def execPack (x : LinkId) (s : State) : Host.Outcome State Fault Refusal :=
  .next (s.serve x Code.pack (fun p => p.isEmpty) fun _ s =>
    if s.pack.state ≠ .idle then .refuse .storeBusy
    else .ok (u8 s.free.length)
      { s with
        pack := { s.pack with state := .running, link := some x, cursor := 0, moves := 0, barriers := 0 } })

/-- A pack ends (R49): PACK_DONE is queued on the requesting link, the state is IDLE and the requesting link is
absent. -/
def State.endPack (s : State) (stopped : Bool) : State :=
  let body := NoticeBody.packDone stopped s.pack.moves s.pack.barriers s.free.length (largestExtent s.free)
  let s' := match s.pack.link with
    | none => s
    | some x => s.notify x body
  { s' with pack := { s'.pack with state := .idle, link := none } }

/-- STOP-PACK (R48). -/
def execStopPack (x : LinkId) (s : State) : Host.Outcome State Fault Refusal :=
  .next (s.serve x Code.stopPack (fun p => p.isEmpty) fun _ s =>
    match s.pack.state, s.pack.move with
    | .idle, _ => .refuse .notPacking
    | .running, none => .ok (u8 PackState.idle.num) (s.endPack true)
    | .running, some _ =>
      .ok (u8 PackState.stopping.num) { s with pack := { s.pack with state := .stopping } }
    | .stopping, _ => .ok (u8 PackState.stopping.num) s)

/-- The block the next visit chooses: the lowest base at or above the cursor (R41). -/
def State.visitChoice (s : State) : Option (SlotId × Block) :=
  s.blocksByBase.find? fun e => decide (s.pack.cursor ≤ e.2.base)

/-- The free extent whose last granule is directly below a base (R42). -/
def extentBelow (base : Nat) (l : List Extent) : Option Extent := l.find? fun e => e.base + e.count == base

/-- The start of a move of a block onto the extent directly below it (R43). -/
def State.startMove (s : State) (i : SlotId) (b : Block) (e : Extent) : State :=
  let s := s.modBlock i fun b => { b with dest := some e.base }
  { s with
    free := s.free.filter fun h => h != e
    pack := { s.pack with
      move := some ⟨i, b.base, e.base, b.granules⟩
      cursor := e.base + b.granules } }

/-- The visit of a block (R42): it stays, moves, or is a barrier. -/
def State.visitBlock (s : State) (i : SlotId) (b : Block) : State :=
  match extentBelow b.base s.free with
  | none => { s with pack := { s.pack with cursor := b.base + b.granules } }
  | some e =>
    if b.held then
      { s with
        pack := { s.pack with cursor := b.base + b.granules, barriers := s.pack.barriers + 1 } }
    else s.startMove i b e

/-- PACK_VISIT (R41): made while the pack state is RUNNING and no move is in flight. -/
def execPackVisit (s : State) : Host.Outcome State Fault Refusal :=
  .next (if s.ready && s.pack.state == .running && s.pack.move.isNone then
    match s.visitChoice with
    | none => s.endPack false
    | some (i, b) => s.visitBlock i b
  else s)

/-- The store and the access record at the completion of a move (R44, R45 steps 1 to 3). -/
def State.finishMove (s : State) (m : Move) : State :=
  let s := s.modBlock m.slot fun b => { b with base := m.dst, dest := none }
  { s with
    store := s.store.copy (64 * m.src) (64 * m.dst) (64 * m.granules)
    free := giveBack ⟨m.dst + m.granules, m.src - m.dst⟩ s.free
    pack := { s.pack with move := none, moves := s.pack.moves + 1 } }

/-- MOVE_COMPLETION (R45): the block stands at its new base, the vacated granules return, the grant evaluation of
R35 follows, and a STOPPING pack ends STOPPED. -/
def execMoveCompletion (s : State) : Host.Outcome State Fault Refusal :=
  .next (if s.ready then
    match s.pack.move with
    | none => s
    | some m =>
      let s := (s.finishMove m).evaluate m.slot
      if s.pack.state = .stopping then s.endPack true else s
  else s)

end Sys2Proof.Machine
end

