-- ==== Sys2Proof/Machine/PinEvents.lean ====
section
/-! DEFINITION. The events at the lane pins (R76, R80, R103), the ends of the timed steps of a beat (R80, R84, R94), and
power, reset and start-up (R170, R171). -/

namespace Sys2Proof.Machine

/-! ## Lane pins -/

/-- The level of a lane's FLG pin. -/
def State.setFlgPin (s : State) (i : LaneId) (high : Bool) : State :=
  { s with pins := s.pins.set i { s.pins[i] with flg := high } }

/-- The level of a lane's HOLD pin. -/
def State.setHoldPin (s : State) (i : LaneId) (high : Bool) : State :=
  { s with pins := s.pins.set i { s.pins[i] with hold := high } }

/-- What a change of a FLG pin does once the pin has its new level: on the first lane of a gang it is watched in
MANUAL (R76) and tested against the beat in the other modes (R80); on any other lane it has no effect (R55, R57). -/
def State.flgSeen (s : State) (i : LaneId) : State :=
  match s.gangOfLane i with
  | none => s
  | some (g, G) =>
    if G.first = i then
      if G.cfg.mode = .manual then s.watchFlg g (s.flg G) else s.flgMoved g (s.flg G)
    else s

/-- FLG_CHANGE (R57, R76, R80), with the board's data levels at that moment (log 8). A level the pin already has is
no change. -/
def execFlgChange (i : LaneId) (high : Bool) (board : Board) (s : State) : Host.Outcome State Fault Refusal :=
  .next (if s.pins[i].flg = high then s
    else
      let s' := (s.setFlgPin i high).senseBoard board
      if s.ready then s'.flgSeen i else s')

/-- What a change of a HOLD pin does: `before` is the state before it (R103). -/
def State.holdSeen (s : State) (i : LaneId) (before : State) : State :=
  match s.gangOfLane i with
  | none => s
  | some (g, G) =>
    if s.heldOff G && !before.heldOff G then s.holdBegin g
    else if before.heldOff G && !s.heldOff G then s.holdEnd g
    else s

/-- HOLD_CHANGE (R103). -/
def execHoldChange (i : LaneId) (high : Bool) (s : State) : Host.Outcome State Fault Refusal :=
  .next (if s.pins[i].hold = high then s
    else
      let s' := s.setHoldPin i high
      if s.ready then s'.holdSeen i s else s')

/-! ## The timed steps of a beat -/

/-- SETTLE_END (R80), with the board's data levels at that moment (log 8). -/
def execSettleEnd (g : GangId) (board : Board) (s : State) : Host.Outcome State Fault Refusal :=
  .next (if s.ready then
    s.withActive g fun G J B => if settleDue G J B then (s.senseBoard board).settleDone g else s
  else s)

/-- PULSE_END (R80). -/
def execPulseEnd (g : GangId) (s : State) : Host.Outcome State Fault Refusal :=
  .next (if s.ready then s.pulseDone g else s)

/-- PERIOD_END (R94). -/
def execPeriodEnd (g : GangId) (s : State) : Host.Outcome State Fault Refusal :=
  .next (if s.ready then s.periodDone g else s)

/-- BEAT_TIMER_EXPIRY (R84). -/
def execBeatTimerExpiry (g : GangId) (s : State) : Host.Outcome State Fault Refusal :=
  .next (if s.ready then s.beatExpired g else s)

/-! ## Power, reset and start-up -/

/-- POWER_ON (R170): a start-up begins with cause POWER, or the part is held in reset while RESETN is asserted. -/
def execPowerOn (rsel : Fin 4) (s : State) : Host.Outcome State Fault Refusal :=
  .next (if s.mode = .off then
    if s.resetnHigh then { s.beginStartup .power rsel with started := false }
    else { s.fullRestart rsel with mode := .held, started := false }
  else s)

/-- POWER_OFF (R171): every activity and every state ends (log 11), and SDO is not driven (log 25). -/
def execPowerOff (s : State) : Host.Outcome State Fault Refusal :=
  .next (if s.mode = .off then s
    else { s.fullRestart 0 with mode := .off, started := false, store := [], rate := s.rate, sdo := none })

/-- RESETN_ASSERTED (R171): the part takes its full-restart values, goes no further, and abandons a start-up in
progress. -/
def execResetnAsserted (rsel : Fin 4) (s : State) : Host.Outcome State Fault Refusal :=
  let s' : State := { s with resetnHigh := false }
  .next (if s.resetnHigh && s.mode != .off then { s'.fullRestart rsel with mode := .held } else s')

/-- RESETN_RELEASED (R170, R171): a new start-up begins, with cause PIN or POWER. -/
def execResetnReleased (rsel : Fin 4) (s : State) : Host.Outcome State Fault Refusal :=
  let s' : State := { s with resetnHigh := true }
  .next (if s.mode = .held then s'.beginStartup s.pinCause rsel else s')

/-- STARTUP_END (R170): the zeroing is complete, the parsers begin to accept bytes, and STARTED with scope ALL and
the recorded cause is queued on Link A and on Link B. -/
def execStartupEnd (s : State) : Host.Outcome State Fault Refusal :=
  .next (match s.mode with
    | .starting cause =>
      let s' : State := { s with mode := .ready, started := true, store := [] }
      (s'.notify .a (.started .all cause)).notify .b (.started .all cause)
    | .off => s
    | .held => s
    | .ready => s)

end Sys2Proof.Machine
end

