-- ==== Sys2Proof/Machine/StoreRequests.lean ====
section
/-! DEFINITION. The requests of the store area that act on the directory and the store bytes (R10-R21). -/

namespace Sys2Proof.Machine

/-! ## DEFINE (R10, R11) -/

/-- The name length byte of DEFINE and LOOKUP lies in 1..15 (R161). -/
def nameLengthOk (n : Nat) : Bool := decide (1 ≤ n ∧ n ≤ 15)

/-- DEFINE's payload length: 5 + n, or 6 + n with a fill byte (R161). -/
def defineLengthOk (p : List Byte) : Bool :=
  let n := byteAt p 0
  nameLengthOk n && (p.length == 5 + n || p.length == 6 + n)

/-- The folded name of DEFINE and LOOKUP (R5). -/
def nameOf (p : List Byte) : List Byte := foldName ((p.drop 1).take (byteAt p 0))

/-- DEFINE's size field. -/
def defineSize (p : List Byte) : Nat := be32 p (1 + byteAt p 0)

/-- DEFINE's fill byte, 0x00 when it is omitted (R10). -/
def defineFill (p : List Byte) : Byte := p.getD (5 + byteAt p 0) 0x00#8

/-- The record DEFINE creates (R3). -/
def newBlock (name : List Byte) (size base : Nat) : Block :=
  { name := name, size := size, base := base, dest := none, refs := 0, readers := [], writer := none, waiters := [] }

/-- The new block put into the store: slot, generation, free list and filled bytes (R11). -/
def State.create (s : State) (i : SlotId) (name : List Byte) (size base : Nat) (free : List Extent) (fill : Byte) :
    State :=
  { s with
    dir := s.dir.set i { gen := s.dir[i].gen + 1#8, block := some (newBlock name size base) }
    free := free
    store := s.store.fill (64 * base) (64 * granulesOf size) fill }

/-- DEFINE's checks in the order of R10, and its effect (R11). -/
def defineRule (name : List Byte) (size : Nat) (fill : Byte) (s : State) : Answer :=
  if !nameWellFormed name || size == 0 || decide (storeSize < size) then .refuse .badField
  else if s.pack.state ≠ .idle then .refuse .storeBusy
  else if (s.named name).isSome then .refuse .nameTaken
  else
    match s.freeSlot with
    | none => .refuse .directoryFull
    | some i =>
      if freeGranules s.free < granulesOf size then .refuse .storeFull
      else
        match allocate (granulesOf size) s.free with
        | none => .refuse .storeFragmented
        | some (base, free) =>
          let s' := s.create i name size base free fill
          .ok (s'.handle i ++ u16 base ++ u16 (granulesOf size) ++ u16 (freeGranules free) ++
            u16 (largestExtent free)) s'

/-- DEFINE (R10, R11). -/
def execDefine (x : LinkId) (s : State) : Host.Outcome State Fault Refusal :=
  .next (s.serve x Code.define defineLengthOk fun p s => defineRule (nameOf p) (defineSize p) (defineFill p) s)

/-! ## DELETE (R12) -/

/-- The deleted block's granules return to the free list and its slot is free (R12). -/
def State.destroy (s : State) (i : SlotId) (b : Block) : State :=
  { s.setBlock i none with free := giveBack ⟨b.base, b.granules⟩ s.free }

/-- DELETE's checks and effect (R12). -/
def deleteRule (p : List Byte) (s : State) : Answer :=
  match s.resolveAt p 0 with
  | none => .refuse .noSuchBlock
  | some (i, b) =>
    if b.dest.isSome then .refuse .blockBusy
    else if 0 < b.refs then .refuse .blockInUse
    else
      let s' := s.destroy i b
      .ok (u16 b.granules ++ u16 (freeGranules s'.free) ++ u16 (largestExtent s'.free) ++ u8 s'.free.length) s'

/-- DELETE (R12). -/
def execDelete (x : LinkId) (s : State) : Host.Outcome State Fault Refusal :=
  .next (s.serve x Code.delete (fun p => p.length == 2) deleteRule)

/-! ## LOOKUP, DESCRIBE, CATALOG, STORE-MAP (R14-R17) -/

/-- LOOKUP's payload length: 1 + n (R161). -/
def lookupLengthOk (p : List Byte) : Bool := nameLengthOk (byteAt p 0) && p.length == 1 + byteAt p 0

/-- LOOKUP (R14). -/
def execLookup (x : LinkId) (s : State) : Host.Outcome State Fault Refusal :=
  .next (s.serve x Code.lookup lookupLengthOk fun p s =>
    match s.named (nameOf p) with
    | none => .refuse .noSuchBlock
    | some (i, b) => .ok (s.handle i ++ u32 b.size ++ flagByte b.dest.isSome) s)

/-- A waiter entry: job id, gang, access (R15). -/
def Waiter.field (w : Waiter) : List Byte := u16 w.job ++ u8 w.gang.val ++ flagByte w.write

/-- DESCRIBE's reply fields (R15, section 9.6). -/
def State.describeFields (s : State) (i : SlotId) (b : Block) : List Byte :=
  s.handle i ++ nameField b.name ++ u32 b.size ++ u16 b.base ++ u16 b.granules ++ flagByte b.dest.isSome ++
    baseField b.dest ++ u8 b.refs ++ listField (fun g => u8 g.val) b.readers ++ gangField b.writer ++
    listField Waiter.field b.waiters

/-- DESCRIBE (R15). -/
def execDescribe (x : LinkId) (s : State) : Host.Outcome State Fault Refusal :=
  .next (s.serve x Code.describe (fun p => p.length == 2) fun p s =>
    match s.resolveAt p 0 with
    | none => .refuse .noSuchBlock
    | some (i, b) => .ok (s.describeFields i b) s)

/-- A CATALOG entry (R16, section 9.6). -/
def State.catalogEntry (s : State) (e : SlotId × Block) : List Byte :=
  s.handle e.1 ++ nameField e.2.name ++ u32 e.2.size ++ u16 e.2.base ++ u16 e.2.granules ++
    flagByte e.2.dest.isSome

/-- CATALOG (R16): a page of up to 8 blocks in ascending base order. -/
def execCatalog (x : LinkId) (s : State) : Host.Outcome State Fault Refusal :=
  .next (s.serve x Code.catalog (fun p => p.length == 1) fun p s =>
    let start := byteAt p 0
    let all := s.blocksByBase
    if all.length < start then .refuse .badField
    else .ok (u8 all.length ++ u8 start ++ listField s.catalogEntry ((all.drop start).take 8)) s)

/-- STORE-MAP (R17): the totals and a page of up to 32 extents. -/
def execStoreMap (x : LinkId) (s : State) : Host.Outcome State Fault Refusal :=
  .next (s.serve x Code.storeMap (fun p => p.length == 1) fun p s =>
    let start := byteAt p 0
    if s.free.length < start then .refuse .badField
    else .ok (u16 (freeGranules s.free) ++ u16 (largestExtent s.free) ++ u8 s.free.length ++ u8 s.blocks.length ++
      u8 s.pack.state.num ++ u8 start ++
      listField (fun e => u16 e.base ++ u16 e.count) ((s.free.drop start).take 32)) s)

/-! ## WRITE, READ, FILL (R18-R21, R33) -/

/-- The access condition of WRITE and FILL: no readers, no writer, not MOVING (R19, R21). -/
def Block.writable (b : Block) : Bool := b.readers.isEmpty && b.writer.isNone && b.dest.isNone

/-- The access condition of READ: no writer, not MOVING (R20). -/
def Block.readable (b : Block) : Bool := b.writer.isNone && b.dest.isNone

/-- The checks of a host data request in the order of R18. -/
def hostData (p : List Byte) (count most : Nat) (access : Block → Bool) (s : State) (act : Block → Nat → Answer) :
    Answer :=
  match s.resolveAt p 0 with
  | none => .refuse .noSuchBlock
  | some (_, b) =>
    if count = 0 ∨ most < count then .refuse .badField
    else if !access b then .refuse .blockBusy
    else if b.size < be32 p 2 + count then .refuse .rangeOutsideBlock
    else act b (be32 p 2)

/-- The most bytes a WRITE or READ carries (R18). -/
def dataCap : Nat := 224

/-- WRITE (R19): data byte i becomes block byte offset + i. -/
def execWrite (x : LinkId) (s : State) : Host.Outcome State Fault Refusal :=
  .next (s.serve x Code.write (fun p => decide (6 ≤ p.length ∧ p.length ≤ 232)) fun p s =>
    let data := p.drop 6
    hostData p data.length dataCap Block.writable s fun b offset =>
      .ok (u8 data.length) { s with store := s.store.setBytes (b.addr offset) data })

/-- READ (R20). -/
def execRead (x : LinkId) (s : State) : Host.Outcome State Fault Refusal :=
  .next (s.serve x Code.read (fun p => p.length == 7) fun p s =>
    let count := byteAt p 6
    hostData p count dataCap Block.readable s fun b offset =>
      .ok (u32 offset ++ u8 count ++ s.store.bytes (b.addr offset) count) s)

/-- FILL (R21). -/
def execFill (x : LinkId) (s : State) : Host.Outcome State Fault Refusal :=
  .next (s.serve x Code.fill (fun p => p.length == 11) fun p s =>
    let count := be32 p 6
    hostData p count storeSize Block.writable s fun b offset =>
      .ok (u32 count) { s with store := s.store.fill (b.addr offset) count (p.getD 10 0x00#8) })

end Sys2Proof.Machine
end

