-- ==== Sys2Proof/Machine/Dispatch.lean ====
section
/-! DEFINITION. One arm for each command. -/

namespace Sys2Proof.Machine

/-- The effect of a command on everything but the queue. -/
def exec (i : Instr) (s : State) : Host.Outcome State Fault Refusal :=
  match i with
  | .hello x => Sys2Proof.Machine.execHello x s
  | .summary x => Sys2Proof.Machine.execSummary x s
  | .restartEngine x => Sys2Proof.Machine.execRestartEngine x s
  | .restartAll x rsel => Sys2Proof.Machine.execRestartAll x rsel s
  | .detach x => Sys2Proof.Machine.execDetach x s
  | .sync x => Sys2Proof.Machine.execSync x s
  | .define x => Sys2Proof.Machine.execDefine x s
  | .delete x => Sys2Proof.Machine.execDelete x s
  | .lookup x => Sys2Proof.Machine.execLookup x s
  | .describe x => Sys2Proof.Machine.execDescribe x s
  | .catalog x => Sys2Proof.Machine.execCatalog x s
  | .storeMap x => Sys2Proof.Machine.execStoreMap x s
  | .write x => Sys2Proof.Machine.execWrite x s
  | .read x => Sys2Proof.Machine.execRead x s
  | .fill x => Sys2Proof.Machine.execFill x s
  | .pack x => Sys2Proof.Machine.execPack x s
  | .stopPack x => Sys2Proof.Machine.execStopPack x s
  | .form x => Sys2Proof.Machine.execForm x s
  | .dissolve x => Sys2Proof.Machine.execDissolve x s
  | .configure x => Sys2Proof.Machine.execConfigure x s
  | .timing x => Sys2Proof.Machine.execTiming x s
  | .gangStatus x => Sys2Proof.Machine.execGangStatus x s
  | .setLines x => Sys2Proof.Machine.execSetLines x s
  | .getLines x board => Sys2Proof.Machine.execGetLines x board s
  | .setControl x => Sys2Proof.Machine.execSetControl x s
  | .submit x => Sys2Proof.Machine.execSubmit x s
  | .cancel x => Sys2Proof.Machine.execCancel x s
  | .halt x => Sys2Proof.Machine.execHalt x s
  | .pause x => Sys2Proof.Machine.execPause x s
  | .resume x => Sys2Proof.Machine.execResume x s
  | .jobStatus x => Sys2Proof.Machine.execJobStatus x s
  | .unknownRequest x => Sys2Proof.Machine.execUnknownRequest x s
  | .frameReceived x byte => Sys2Proof.Machine.execFrameReceived x byte s
  | .lengthOversize x byte => Sys2Proof.Machine.execLengthOversize x byte s
  | .gapTimerExpiry => Sys2Proof.Machine.execGapTimerExpiry s
  | .sselDeasserted => Sys2Proof.Machine.execSselDeasserted s
  | .transmitBegin x => Sys2Proof.Machine.execTransmitBegin x s
  | .transmitEnd x => Sys2Proof.Machine.execTransmitEnd x s
  | .breakDetected => Sys2Proof.Machine.execBreakDetected s
  | .syncTimerExpiry x => Sys2Proof.Machine.execSyncTimerExpiry x s
  | .powerOn rsel => Sys2Proof.Machine.execPowerOn rsel s
  | .powerOff => Sys2Proof.Machine.execPowerOff s
  | .resetnAsserted rsel => Sys2Proof.Machine.execResetnAsserted rsel s
  | .resetnReleased rsel => Sys2Proof.Machine.execResetnReleased rsel s
  | .startupEnd => Sys2Proof.Machine.execStartupEnd s
  | .flgChange lane high board => Sys2Proof.Machine.execFlgChange lane high board s
  | .holdChange lane high => Sys2Proof.Machine.execHoldChange lane high s
  | .settleEnd g board => Sys2Proof.Machine.execSettleEnd g board s
  | .pulseEnd g => Sys2Proof.Machine.execPulseEnd g s
  | .periodEnd g => Sys2Proof.Machine.execPeriodEnd g s
  | .beatTimerExpiry g => Sys2Proof.Machine.execBeatTimerExpiry g s
  | .packVisit => Sys2Proof.Machine.execPackVisit s
  | .moveCompletion => Sys2Proof.Machine.execMoveCompletion s
  | .byteReceived x byte => Sys2Proof.Machine.execByteReceived x byte s
  | .breakEnd => Sys2Proof.Machine.execBreakEnd s

end Sys2Proof.Machine
end

