-- ==== Sys2Proof/Safety.lean ====
section
/-! DEFINITION. What a sound state of the part is: the conditions the manual says hold "at every moment", as decidable
predicates that the statements use. -/

namespace Sys2Proof

/-- The link on which a row takes a request; none for a row that takes none. -/
def Instr.requestLink : Instr → Option LinkId
  | .hello x | .summary x | .restartEngine x | .restartAll x _ | .detach x | .sync x => some x
  | .define x | .delete x | .lookup x | .describe x | .catalog x | .storeMap x => some x
  | .write x | .read x | .fill x | .pack x | .stopPack x => some x
  | .form x | .dissolve x | .configure x | .timing x | .gangStatus x | .setLines x | .getLines x _ => some x
  | .setControl x | .submit x | .cancel x | .halt x | .pause x | .resume x | .jobStatus x => some x
  | .unknownRequest x => some x
  | .frameReceived _ _ | .lengthOversize _ _ | .gapTimerExpiry | .sselDeasserted => none
  | .transmitBegin _ | .transmitEnd _ | .breakDetected | .syncTimerExpiry _ => none
  | .powerOn _ | .powerOff | .resetnAsserted _ | .resetnReleased _ | .startupEnd => none
  | .flgChange _ _ _ | .holdChange _ _ | .settleEnd _ _ | .pulseEnd _ | .periodEnd _ => none
  | .beatTimerExpiry _ | .packVisit | .moveCompletion | .byteReceived _ _ | .breakEnd => none

namespace Machine

/-! ## Taking a request (R149) -/

/-- Can the link take the request at the head of its intake? -/
abbrev State.CanTake (s : State) (x : LinkId) : Prop :=
  s.mode = .ready ∧ (s.link x).intake ≠ [] ∧ (s.link x).sync = none ∧ (s.link x).replies.length < 8

/-- The link is about to take the request `r`, and `rest` is what its intake holds behind it. -/
abbrev State.Takes (s : State) (x : LinkId) (r : Request) (rest : List Request) : Prop :=
  s.mode = .ready ∧ (s.link x).intake = r :: rest ∧ (s.link x).sync = none ∧ (s.link x).replies.length < 8

/-- The state in which the request `r` has left the intake of link `x` and its reply, with this payload, stands at the
tail of the reply queue; nothing else differs. -/
def State.answered (s : State) (x : LinkId) (r : Request) (rest : List Request) (payload : List Byte) : State :=
  s.setLink x
    { s.link x with
      intake := rest
      replies := (s.link x).replies ++ [.reply ⟨r.tag, r.code, payload⟩] }

/-- The state in which link `x` has removed the head of its intake, of which `rest` is left. -/
def State.popped (s : State) (x : LinkId) (rest : List Request) : State :=
  s.setLink x { s.link x with intake := rest }

/-- The code and the permitted payloads of a request row, as the table of R161 gives them. -/
def requestRow : Instr → Option (Byte × (List Byte → Bool))
  | .hello _ => some (0x01#8, fun p => p.length == 0)
  | .summary _ => some (0x02#8, fun p => p.length == 0)
  | .restartEngine _ | .restartAll _ _ => some (0x03#8, fun p => p.length == 1)
  | .detach _ => some (0x04#8, fun p => p.length == 0)
  | .sync _ => some (0x05#8, fun p => p.length == 3)
  | .define _ => some (0x10#8, fun p =>
      decide (1 ≤ byteAt p 0 ∧ byteAt p 0 ≤ 15 ∧ (p.length = 5 + byteAt p 0 ∨ p.length = 6 + byteAt p 0)))
  | .delete _ => some (0x11#8, fun p => p.length == 2)
  | .lookup _ => some (0x12#8, fun p => decide (1 ≤ byteAt p 0 ∧ byteAt p 0 ≤ 15 ∧ p.length = 1 + byteAt p 0))
  | .describe _ => some (0x13#8, fun p => p.length == 2)
  | .catalog _ => some (0x14#8, fun p => p.length == 1)
  | .storeMap _ => some (0x15#8, fun p => p.length == 1)
  | .write _ => some (0x16#8, fun p => decide (6 ≤ p.length ∧ p.length ≤ 232))
  | .read _ => some (0x17#8, fun p => p.length == 7)
  | .fill _ => some (0x18#8, fun p => p.length == 11)
  | .pack _ => some (0x19#8, fun p => p.length == 0)
  | .stopPack _ => some (0x1A#8, fun p => p.length == 0)
  | .form _ => some (0x20#8, fun p => p.length == 2)
  | .dissolve _ => some (0x21#8, fun p => p.length == 1)
  | .configure _ => some (0x22#8, fun p => p.length == 13)
  | .timing _ => some (0x23#8, fun p => p.length == 15)
  | .gangStatus _ => some (0x24#8, fun p => p.length == 1)
  | .setLines _ => some (0x25#8, fun p => decide (1 ≤ p.length ∧ p.length ≤ 11))
  | .getLines _ _ => some (0x26#8, fun p => p.length == 1)
  | .setControl _ => some (0x27#8, fun p => p.length == 2)
  | .submit _ => some (0x30#8, fun p => p.length == 13)
  | .cancel _ => some (0x31#8, fun p => p.length == 2)
  | .halt _ => some (0x32#8, fun p => p.length == 1)
  | .pause _ => some (0x33#8, fun p => p.length == 1)
  | .resume _ => some (0x34#8, fun p => p.length == 1)
  | .jobStatus _ => some (0x35#8, fun p => p.length == 2)
  | _ => none

/-- A run of commands, one after another. -/
def runAll (cs : List Instr) (s : State) : State :=
  cs.foldl (fun s c => match exec c s with | .next t => t | .fault _ => s | .refused _ => s) s

/-- Gang `g` is formed with the record `G`, its active job is `J` with the beat state `B`, and `later` are the jobs
behind the head. -/
abbrev State.Active (s : State) (g : GangId) (G : Gang) (J : Job) (later : List Job) (B : Beat) : Prop :=
  s.gang g = some G ∧ G.queue = J :: later ∧ G.beat = some B

/-- What a link reset of link `x` leaves of the state `s` in `t` (R155), but for the link itself: its gangs are gone and
their lanes free, every block loses their access entries and the refs of their jobs and keeps the rest of its record, the
other link's gangs keep their settings, a SYNC of the other link on a gang that went is answered GANG_GONE, and the rest
of the other link, the store, the free list, the pack unit, the pins, the job id counter and the rate stay. -/
def State.LinkWorkGone (s t : State) (x : LinkId) : Prop :=
  (∀ g : GangId, ∀ G ∈ s.gang g, G.owner = x → t.gang g = none) ∧
    (∀ g : GangId, ∀ G ∈ s.gang g, G.owner ≠ x → ∃ G' ∈ t.gang g,
      G'.owner = G.owner ∧ G'.first = G.first ∧ G'.width = G.width ∧ G'.cfg = G.cfg ∧ G'.time = G.time ∧
        G'.run = G.run ∧ G'.last = G.last ∧ G'.queue.map Job.id = G.queue.map Job.id) ∧
    (∀ g : GangId, s.gang g = none → t.gang g = none) ∧
    (∀ i : LaneId, ∀ g ∈ s.lanes[i].gang, s.ownedBy x g = true →
      t.lanes[i] = { gang := none, latched := s.lanes[i].latched, enabled := false }) ∧
    (∀ i : SlotId, t.dir[i].gen = s.dir[i].gen ∧ (s.block i = none → t.block i = none) ∧
      ∀ b ∈ s.block i, ∃ b' ∈ t.block i, (b'.name, b'.size, b'.base, b'.dest) = (b.name, b.size, b.base, b.dest) ∧
        b'.refs = b.refs - countNaming i (s.jobsOf (s.ownedBy x)) ∧ b'.mentions (s.ownedBy x) = false) ∧
    (t.link x.other).intake = (s.link x.other).intake ∧ (t.link x.other).notices = (s.link x.other).notices ∧
    (∀ p ∈ (s.link x.other).sync, s.ownedBy x p.gang = true → (t.link x.other).sync = none ∧
      (t.link x.other).replies =
        replaceReservation ⟨p.tag, 0x05#8, [27#8] ++ u8 p.gang.val⟩ (s.link x.other).replies) ∧
    ((∀ p ∈ (s.link x.other).sync, s.ownedBy x p.gang = false) → t.link x.other = s.link x.other) ∧
    t.mode = s.mode ∧ t.store = s.store ∧ t.free = s.free ∧ t.pack = s.pack ∧ t.pins = s.pins ∧ t.nextId = s.nextId ∧
    t.rate = s.rate ∧ t.ssel = s.ssel ∧ t.sdo = s.sdo

/-! ## The store (R1) -/

/-- The store's cells are in their canonical form. -/
abbrev State.StoreCanonical (s : State) : Prop := s.store.wf

/-! ## The links (R150, R153, R158, R181) -/

/-- The bounds of one link: intake 4, reply queue 8, notice queue 16, dropped count 255, exactly one reservation while a
SYNC is pending and none otherwise, and an outbound frame that has a byte not yet sent (R151). -/
abbrev Link.Bounded (l : Link) : Prop :=
  l.intake.length ≤ intakeCap ∧ l.replies.length ≤ replyCap ∧ l.notices.length ≤ noticeCap ∧ l.dropped ≤ 255 ∧
    l.replies.count .reservation = l.sync.toList.length ∧ ∀ o ∈ l.outbound, o.sent < o.frame.length

/-- Both links are within their bounds, and SDO of Link A is driven only while SSEL is asserted (R139). -/
abbrev State.LinksBounded (s : State) : Prop :=
  s.linkA.Bounded ∧ s.linkB.Bounded ∧ (s.sdo.isSome = true → s.ssel = true)

/-! ## Lanes and gangs (R55, R58, R59) -/

/-- A lane's gang field and the gang records agree: a lane belongs to gang g exactly when g is formed and its run of
lanes takes the lane in (R54, R59). So no lane belongs to two gangs. -/
abbrev State.LanesAgree (s : State) : Prop :=
  ∀ (i : LaneId) (g : GangId), s.lanes[i].gang = some g ↔ ((s.gang g).any fun G => G.has i.val) = true

/-- A free lane's drivers are floated (R55). -/
abbrev State.FreeLanesFloat (s : State) : Prop :=
  ∀ i : LaneId, s.lanes[i].gang = none → s.lanes[i].enabled = false

/-- May the drivers of a gang be enabled? The gang is not held off and is in MANUAL with direction OUT, or rests in HOLD
after a SEND job, or runs a SEND job past its first drive (R58). -/
abbrev State.MayDrive (s : State) (G : Gang) : Prop :=
  s.heldOff G = false ∧
    ((G.cfg.mode = .manual ∧ G.cfg.manualOut = true) ∨ G.restDrive = true ∨
      ((G.queue.head?.any fun J => J.dir == .send) = true ∧ (G.beat.any Beat.drove) = true))

/-- The beat in flight of a held-off gang's SEND job is abandoned (R105), and no beat of a CAPTURE job waits for the match
that only SEND beats wait for (R88). -/
abbrev State.BeatSound (s : State) (G : Gang) : Prop :=
  ∀ J ∈ G.queue.head?, ∀ B ∈ G.beat,
    (J.dir = .send → B.inFlight = true → s.heldOff G = true → B.abandoned = true) ∧
      (J.dir = .capture → B.phase ≠ some .waitMatch)

/-- The drivers of every lane of a gang are enabled only while they may be (R58), with what keeps them so: the beats are
sound, and a part that is not ready has no gang (R170). -/
abbrev State.DriversSound (s : State) : Prop :=
  (s.mode ≠ .ready → ∀ g : GangId, s.gang g = none) ∧ (∀ (g : GangId), ∀ G ∈ s.gang g, s.BeatSound G) ∧
    ∀ i : LaneId, s.lanes[i].enabled = true → ∀ g ∈ s.lanes[i].gang, ∀ G ∈ s.gang g, s.MayDrive G

/-! ## Queues (R26, R115, R121, R137) -/

/-- A gang's queue holds at most 6 jobs, every job behind the head is QUEUED, and an engine has beat state exactly while
it has an active job (R78). -/
abbrev Gang.QueueShape (G : Gang) : Prop :=
  G.queue.length ≤ queueCap ∧ (∀ J ∈ G.queue.tail, J.state = .queued) ∧ G.beat.isSome = !G.queue.isEmpty

/-- The queue of every gang has its shape. -/
abbrev State.QueuesShape (s : State) : Prop := ∀ (g : GangId), ∀ G ∈ s.gang g, G.QueueShape

/-- Every live job names a block that is present, and each block's refs counts the live jobs that name it (R13). -/
abbrev State.RefsCount (s : State) : Prop :=
  ∀ i : SlotId,
    (s.block i = none → countNaming i (s.liveJobs.map Prod.snd) = 0) ∧
      ∀ b ∈ s.block i, b.refs = countNaming i (s.liveJobs.map Prod.snd)

/-- The live job ids are distinct and never 0 (R116). -/
abbrev State.IdsDistinct (s : State) : Prop := s.liveIds.Nodup ∧ 0 ∉ s.liveIds

/-- Job numbering is sound: the counter is in 1..65535, and the live ids are distinct and never 0 (R116). -/
abbrev State.NumberingSound (s : State) : Prop := 1 ≤ s.nextId ∧ s.nextId ≤ 65535 ∧ s.IdsDistinct

/-! ## Access records (R26) -/

/-- The conditions of R26 on one record: no writer together with a reader, no holder while MOVING, and the oldest waiter
of a READY block waits for a present holder that its access is incompatible with. -/
abbrev Block.AccessSound (b : Block) : Prop :=
  (b.writer.isSome = true → b.readers = []) ∧
    (b.dest.isSome = true → b.held = false) ∧
    (b.dest = none → ∀ w ∈ b.waiters.head?, b.writer.isSome = true ∨ (w.write = true ∧ b.readers ≠ []))

/-- Every access record keeps the conditions of R26. -/
abbrev State.AccessSound (s : State) : Prop := ∀ (i : SlotId), ∀ b ∈ s.block i, b.AccessSound

/-- The active job of gang `g`, if the gang is formed and has one, satisfies `p`. -/
def State.activeJob (s : State) (g : GangId) (p : Gang → Job → Bool) : Bool :=
  (s.gang g).any fun G => G.queue.head?.any (p G)

/-- Gang `g` may stand as a holder of slot `i`: its active job names the slot, has the direction, and is RUNNING, or
PAUSED in a PAUSED gang (R26, R115). -/
def State.holds (s : State) (g : GangId) (i : SlotId) (dir : Direction) : Bool :=
  s.activeJob g fun G J =>
    J.slot == i && J.dir == dir && J.state == (if G.run = .paused then .paused else .running)

/-- An entry may stand in the waiter list of slot `i`: it is the WAITING active job of its gang (R26). -/
def State.waits (s : State) (w : Waiter) (i : SlotId) : Bool :=
  s.activeJob w.gang fun _ J =>
    J.slot == i && J.id == w.job && J.dir == (if w.write then .capture else .send) && J.state == .waiting

/-- A beat is in flight only while the active job of its gang is RUNNING (R28, R79, R99, R115). -/
abbrev State.FlightsRunning (s : State) : Prop :=
  ∀ (g : GangId), ∀ G ∈ s.gang g, ∀ J ∈ G.queue.head?, ∀ B ∈ G.beat, B.inFlight = true → J.state = .running

/-- Every holder and every waiter of an access record is its gang's active job, in the state that belongs to it and in the
record of the block that the job names; readers are in ascending order and no gang waits twice (R25, R26). -/
abbrev State.EntriesActive (s : State) : Prop :=
  ∀ (i : SlotId), ∀ b ∈ s.block i,
    b.readers.Pairwise (· < ·) ∧ (b.waiters.map Waiter.gang).Nodup ∧ (∀ g ∈ b.readers, s.holds g i .send = true) ∧
      (∀ g ∈ b.writer, s.holds g i .capture = true) ∧ ∀ w ∈ b.waiters, s.waits w i = true

/-! ## Free extents and granules (R6, R7) -/

/-- The free list is in ascending order, without overlap and without two extents that touch, and every extent has a
granule (R6). -/
abbrev FreeListSound (l : List Extent) : Prop :=
  l.Pairwise (fun e f => e.base + e.count < f.base) ∧ ∀ e ∈ l, 1 ≤ e.count ∧ e.base + e.count ≤ 2048

/-- The granules a block keeps to itself: its range, or, while MOVING, its span from the destination (R7). -/
def Block.covers (b : Block) (n : Nat) : Bool :=
  decide ((b.dest.getD b.base) ≤ n ∧ n < b.base + b.granules)

/-- The granules of an extent. -/
def Extent.covers (e : Extent) (n : Nat) : Bool := decide (e.base ≤ n ∧ n < e.base + e.count)

/-- How many blocks and free extents take a granule. -/
def State.takers (s : State) (n : Nat) : Nat :=
  (s.blocks.filter fun e => e.2.covers n).length + (s.free.filter fun e => e.covers n).length

/-- Every granule 0..2047 lies in exactly one block's range or span or free extent (R7). -/
abbrev State.GranulesPartitioned (s : State) : Prop := ∀ n, n < 2048 → s.takers n = 1

/-! ## The pack unit (R39, R43) -/

/-- A block stands inside the store and is not empty, and the destination of a MOVING block is below its base. -/
abbrev Block.Placed (b : Block) : Prop :=
  1 ≤ b.size ∧ b.base + b.granules ≤ 2048 ∧ ∀ d ∈ b.dest, d < b.base

/-- The move record and the directory agree: a block is MOVING exactly when the move record names its slot, with the
record's bases and granules, and only while a pack is RUNNING or STOPPING (R39, R43). -/
abbrev State.MoveAgrees (s : State) : Prop :=
  (∀ i : SlotId, ∀ b ∈ s.block i, b.dest.isSome = true →
    s.pack.move = some ⟨i, b.base, b.dest.getD 0, b.granules⟩) ∧
  (∀ m ∈ s.pack.move, ((s.block m.slot).any fun b => b.dest == some m.dst) = true) ∧
  (s.pack.move.isSome = true → s.pack.state ≠ .idle) ∧ (s.pack.state = .stopping → s.pack.move.isSome = true)

/-- The layout of the store is sound: the free list is in order, every granule has one taker, every block is placed,
and the move record agrees with the directory (R6, R7, R43). -/
abbrev State.LayoutSound (s : State) : Prop :=
  FreeListSound s.free ∧ s.GranulesPartitioned ∧ (∀ (i : SlotId), ∀ b ∈ s.block i, b.Placed) ∧ s.MoveAgrees

end Machine

end Sys2Proof
end

