-- ==== Sys2Proof/Certificates/Slice0/Obligations.lean ====
section
/-! DEFINITION. The statements for the provers. A request row is stated for the moment its link takes the request
(`State.Takes`, R149); `State.answered` is the state in which the request has left the intake and its reply stands in the
reply queue, and nothing else differs. -/

open Sys2Proof Sys2Proof.Machine

/-! ## The machine -/

/-- A step runs the command at the front of the queue on the state with the queue's rest. -/
def Obligations.StepRunsTheFrontCommand : Prop :=
  ∀ (s : State) (c : Instr) (rest : List Instr), s.pending = c :: rest →
    step s = exec c { s with pending := rest }

/-- Every command answers a next state and leaves the queue of commands alone (log 24), and an empty queue idles
(log 4): the model's choices. -/
def Obligations.EveryCommandAnswersNext : Prop :=
  (∀ (c : Instr) (s : State), ∃ t, exec c s = .next t ∧ t.pending = s.pending) ∧
    ∀ s : State, s.pending = [] → step s = .next s

/-- What the beginning of a start-up leaves, which is the state after reset: an empty directory with every generation 0, the
free list (0, 2048), an idle pack unit, free lanes with latched byte 0x00 and floated drivers, an empty gang table, the
job id counter 1 and both links at their values of R138 (R170). That reset is that moment, and the input pins, are logs 1
and 2. -/
def Obligations.ResetHoldsTheStartUpValues : Prop :=
  State.reset.mode = .starting .power ∧ State.reset.store = [] ∧
    (∀ i : SlotId, State.reset.dir[i] = ⟨0#8, none⟩) ∧ State.reset.free = [⟨0, 2048⟩] ∧
    State.reset.pack = { state := .idle, link := none, cursor := 0, move := none, moves := 0, barriers := 0 } ∧
    (∀ i : LaneId, State.reset.lanes[i] = { gang := none, latched := 0x00#8, enabled := false }) ∧
    (∀ g : GangId, State.reset.gang g = none) ∧ State.reset.nextId = 1 ∧
    (∀ x : LinkId, State.reset.link x =
      { parser := .hunting, buffer := [], intake := [], sync := none, replies := [], notices := [],
        outbound := none, dropped := 0, seq := 0#8 }) ∧
    State.reset.gap = .stopped ∧ State.reset.pending = []

/-- The invariants stated below hold at reset. -/
def Obligations.InvariantsHoldAtReset : Prop :=
  State.reset.StoreCanonical ∧ State.reset.LinksBounded ∧ State.reset.LanesAgree ∧ State.reset.FreeLanesFloat ∧
    State.reset.QueuesShape ∧ State.reset.NumberingSound ∧ State.reset.RefsCount ∧ State.reset.AccessSound ∧
    State.reset.LayoutSound ∧ State.reset.DriversSound ∧ State.reset.FlightsRunning ∧ State.reset.EntriesActive

/-! ## Invariants that every step keeps -/

/-- The store's cells stay in their canonical form. -/
def Obligations.StoreStaysCanonical : Prop :=
  ∀ s t : State, s.StoreCanonical → step s = .next t → t.StoreCanonical

/-- Each intake holds at most 4 requests, each reply queue at most 8 entries, each notice queue at most 16 notices, the
dropped count is at most 255, a reservation stands in a reply queue exactly while a SYNC is pending, an outbound frame has a
byte not yet sent, and SDO is driven only while SSEL is asserted. -/
def Obligations.LinksStayBounded : Prop :=
  ∀ s t : State, s.LinksBounded → step s = .next t → t.LinksBounded

/-- Lanes and gang records agree, so no lane belongs to two gangs, and the drivers of a free lane are floated. The drivers of a
lane are enabled only while its gang is not held off and is in MANUAL with direction OUT, or rests in HOLD, or runs a SEND
job past its first drive; so the drivers of a held-off gang are floated. -/
def Obligations.LanesStayWithTheirGangs : Prop :=
  (∀ s t : State, s.LanesAgree → s.FreeLanesFloat → step s = .next t → t.LanesAgree ∧ t.FreeLanesFloat) ∧
    (∀ s t : State, s.LanesAgree → s.FreeLanesFloat → s.QueuesShape → s.DriversSound → step s = .next t →
      t.DriversSound) ∧
    ∀ s : State, s.LanesAgree → s.DriversSound → ∀ (g : GangId), ∀ G ∈ s.gang g, s.heldOff G = true →
      ∀ i : LaneId, G.has i.val = true → s.lanes[i].enabled = false

/-- Every queue holds at most 6 jobs, every job behind a head is QUEUED, an engine has beat state exactly while its gang's
queue holds a job, the live job ids are distinct and never 0, and the job id counter stays in 1..65535. A beat is in flight
only while its active job is RUNNING; a step keeps this where every waiter is WAITING, which the next statement keeps. -/
def Obligations.QueuesAndNumberingStaySound : Prop :=
  (∀ s t : State, s.QueuesShape → s.NumberingSound → step s = .next t → t.QueuesShape ∧ t.NumberingSound) ∧
    ∀ s t : State, s.RefsCount → s.QueuesShape → s.EntriesActive → s.FlightsRunning → step s = .next t →
      t.FlightsRunning

/-- Every live job names a block that is present, and each block's refs counts the live jobs that name it. In every access
record no writer stands beside a reader, a MOVING block has no holder, and the oldest waiter of a READY block waits for a
holder that its access is incompatible with. Every holder and every waiter is the active job of its gang, in the job state
that belongs to it, and in the record of the one block that this job names; readers stand in ascending order. -/
def Obligations.RefsAndAccessRecordsStaySound : Prop :=
  (∀ s t : State, s.RefsCount → step s = .next t → t.RefsCount) ∧
    (∀ s t : State, s.AccessSound → step s = .next t → t.AccessSound) ∧
    (∀ s t : State, s.RefsCount → s.QueuesShape → s.FlightsRunning → s.EntriesActive → step s = .next t →
      t.EntriesActive) ∧
    ∀ s : State, s.EntriesActive → ∀ (g : GangId) (i j : SlotId), ∀ b ∈ s.block i, ∀ c ∈ s.block j,
      b.mentions (· == g) = true → c.mentions (· == g) = true → i = j

/-- The free list stays ascending and merged, every granule lies in exactly one block's range or span or free extent, and
the move record agrees with the directory. -/
def Obligations.StoreLayoutStaysSound : Prop :=
  ∀ s t : State, s.LayoutSound → step s = .next t → t.LayoutSound

/-- A request frame sent byte by byte to a hunting parser puts exactly that request at the tail of the intake: what the
frame layout and the check word write, the parser and its checks read. Each byte of Link A is one byte exchange, which sends
a byte of what the link has to say (log 7). -/
def Obligations.FrameBytesCarryTheRequest : Prop :=
  ∀ (s : State) (x : LinkId) (tag code : Byte) (payload : List Byte),
    payload.length ≤ 232 → s.receiving x = true → (s.link x).parser = .hunting → (s.link x).intake.length < 4 →
    (∀ q ∈ (s.link x).intake, q.tag ≠ tag) → (∀ p ∈ (s.link x).sync, p.tag ≠ tag) →
    let frame := frameBytes 1#8 tag code payload
    let t := runAll (frame.dropLast.map (Instr.byteReceived x) ++ (frame.drop (payload.length + 6)).map (Instr.frameReceived x)) s
    let sending := match x with | .a => Nat.repeat Link.exchanged frame.length s.linkA | .b => s.linkB
    t.link x =
        { sending with
          parser := .hunting, buffer := [], intake := (s.link x).intake ++ [⟨tag, code, payload⟩] } ∧
      t.link x.other = s.link x.other ∧ t.gangs = s.gangs ∧ t.dir = s.dir ∧ t.store = s.store ∧ t.lanes = s.lanes

/-! ## Taking requests -/

/-- A request row whose link cannot take a request changes nothing (R149; that such a row has no effect is log 3). -/
def Obligations.TakingNeedsAFreeLink : Prop :=
  ∀ (c : Instr) (x : LinkId) (s : State), c.requestLink = some x → ¬ s.CanTake x → exec c s = .next s

/-- Steps 1 and 2 of the general check order: an unknown code is refused UNKNOWN_REQUEST, and a payload whose length is not
permitted for its row is refused BAD_LENGTH; both replies are the status byte alone, and nothing else changes. -/
def Obligations.UnknownCodesAndWrongLengthsAreRefused : Prop :=
  (∀ (s : State) (x : LinkId) (r : Request) (rest : List Request), s.Takes x r rest →
      r.code.toNat ∉ [0x01, 0x02, 0x03, 0x04, 0x05, 0x10, 0x11, 0x12, 0x13, 0x14, 0x15, 0x16, 0x17, 0x18, 0x19, 0x1A,
        0x20, 0x21, 0x22, 0x23, 0x24, 0x25, 0x26, 0x27, 0x30, 0x31, 0x32, 0x33, 0x34, 0x35] →
      exec (.unknownRequest x) s = .next (s.answered x r rest [1#8])) ∧
    ∀ (c : Instr) (x : LinkId) (code : Byte) (permitted : List Byte → Bool) (s : State) (r : Request)
      (rest : List Request), c.requestLink = some x → requestRow c = some (code, permitted) →
      s.Takes x r rest → r.code = code → permitted r.payload = false →
      exec c s = .next (s.answered x r rest [2#8])

/-! ## The device area -/

/-- HELLO reports the part and the link, or is refused BAD_LENGTH; it changes no state but its own taking. -/
def Obligations.HelloReportsThePart : Prop :=
  ∀ (s : State) (x : LinkId) (r : Request) (rest : List Request), s.Takes x r rest → r.code = 0x01#8 →
    exec (.hello x) s = .next (s.answered x r rest
      (if r.payload = [] then
        [0x00#8, 0x24#8, 0x10#8, 0x41#8, (match x with | .a => 0x00#8 | .b => 0x01#8), 0x08#8, 0x00#8, 0x0A#8, 0x08#8,
          0x30#8, 0x06#8, 0xE8#8]
      else [2#8]))

/-- SUMMARY reports the gangs formed, the live jobs, the blocks, the store totals and the pack state, and STORE-MAP the
totals and a page of up to 32 extents; a start index above the number of extents is refused BAD_FIELD. -/
def Obligations.SummaryAndStoreMapReportTheTotals : Prop :=
  (∀ (s : State) (x : LinkId) (r : Request) (rest : List Request), s.Takes x r rest → r.code = 0x02#8 → r.payload = [] →
      exec (.summary x) s = .next (s.answered x r rest
        ([0#8] ++ u8 s.formed.length ++ u8 s.liveJobs.length ++ u8 s.blocks.length ++
          u16 (s.free.map Extent.count).sum ++ u16 ((s.free.map Extent.count).foldr max 0) ++ u8 s.pack.state.num))) ∧
    ∀ (s : State) (x : LinkId) (r : Request) (rest : List Request) (start : Byte), s.Takes x r rest → r.code = 0x15#8 →
      r.payload = [start] →
      exec (.storeMap x) s = .next (s.answered x r rest
        (if s.free.length < start.toNat then [3#8]
        else
          let page := (s.free.drop start.toNat).take 32
          [0#8] ++ u16 (s.free.map Extent.count).sum ++ u16 ((s.free.map Extent.count).foldr max 0) ++
            u8 s.free.length ++ u8 s.blocks.length ++ u8 s.pack.state.num ++ [start] ++
            (u8 page.length ++ page.flatMap fun e => u16 e.base ++ u16 e.count)))

/-- RESTART ENGINE ends every job and gang: the gang table is empty, every lane is free with its latched byte kept, every
access record is empty and every refs 0 with the rest of the directory kept, the job id counter is 1; the reply carries
the jobs ended and the gangs freed, a SYNC pending on the other link is answered GANG_GONE, and STARTED is queued on each
link whose notice queue has room. -/
def Obligations.RestartEngineEndsAllWork : Prop :=
  ∀ (s : State) (x : LinkId) (r : Request) (rest : List Request), s.Takes x r rest → r.code = 0x03#8 → r.payload = [0#8] →
    ∃ t, exec (.restartEngine x) s = .next t ∧
      (∀ g : GangId, t.gang g = none) ∧
      (∀ i : LaneId, t.lanes[i] = { gang := none, latched := s.lanes[i].latched, enabled := false }) ∧
      (∀ i : SlotId, t.dir[i].gen = s.dir[i].gen ∧
        t.block i = (s.block i).map fun b => { b with readers := [], writer := none, waiters := [], refs := 0 }) ∧
      t.nextId = 1 ∧ t.store = s.store ∧ t.free = s.free ∧ t.pack = s.pack ∧ t.mode = .ready ∧ t.pins = s.pins ∧
      t.gap = s.gap ∧ t.rate = s.rate ∧ t.silent = s.silent ∧
      (t.link x).intake = rest ∧
      (t.link x).replies =
        (s.link x).replies ++ [.reply ⟨r.tag, 0x03#8, [0#8] ++ u8 s.liveJobs.length ++ u8 s.formed.length⟩] ∧
      (t.link x.other).intake = (s.link x.other).intake ∧ (t.link x.other).sync = none ∧
      (∀ p ∈ (s.link x.other).sync,
        (t.link x.other).replies = replaceReservation ⟨p.tag, 0x05#8, [27#8] ++ u8 p.gang.val⟩ (s.link x.other).replies) ∧
      ∀ y : LinkId, (s.link y).notices.length < 16 →
        ((t.link y).notices.getLast?.map Notice.body) = some (.started .engine (match x with | .a => .requestA | .b => .requestB)) ∧
          (t.link y).seq = (s.link y).seq + 1#8

/-- RESTART ALL is answered by no reply and begins a start-up, in which every state takes its full-restart value; a RESTART
with another scope is refused BAD_FIELD and one of another length BAD_LENGTH, and changes nothing. (That a refused RESTART
is taken under either of its two rows is log 6, that the RSEL levels are an operand is log 19, and that the store bytes
stay in the list until the end of the start-up is log 11.) -/
def Obligations.RestartAllBeginsAStartUp : Prop :=
  (∀ (s : State) (x : LinkId) (rsel : Fin 4) (r : Request) (rest : List Request), s.Takes x r rest → r.code = 0x03#8 →
      r.payload = [1#8] →
      exec (.restartAll x rsel) s = .next
        { s with
          mode := .starting (match x with | .a => .requestA | .b => .requestB)
          dir := Vector.replicate 48 ⟨0#8, none⟩, free := [⟨0, 2048⟩], pack := .init
          lanes := Vector.replicate 10 .init, gangs := Vector.replicate 8 none, nextId := 1
          linkA := .init, linkB := .init, gap := .stopped, rate := rateOf rsel, silent := false }) ∧
    ∀ (s : State) (x : LinkId) (rsel : Fin 4) (r : Request) (rest : List Request), s.Takes x r rest → r.code = 0x03#8 →
      r.payload ≠ [0#8] → r.payload ≠ [1#8] →
      exec (.restartEngine x) s = .next (s.answered x r rest (if r.payload.length = 1 then [3#8] else [2#8])) ∧
        exec (.restartAll x rsel) s = .next (s.answered x r rest (if r.payload.length = 1 then [3#8] else [2#8]))

/-- A link reset, by DETACH on either link or by a break of Link B: the link holds its values of R138 but for the announcement
(after DETACH its reply first), and its work is gone. After a break Link B delivers nothing until the line has returned
high (that a second break before then has no effect is log 20). -/
def Obligations.LinkResetTearsDownTheLinksWork : Prop :=
  (∀ (s : State) (x : LinkId) (r : Request) (rest : List Request), s.LanesAgree → s.Takes x r rest → r.code = 0x04#8 →
      r.payload = [] →
      ∃ t, exec (.detach x) s = .next t ∧ s.LinkWorkGone t x ∧
        t.link x =
          { Link.init with
            replies := [.reply ⟨r.tag, 0x04#8, [0#8]⟩], notices := [⟨0#8, 0, .started .link .detach⟩], seq := 1#8 } ∧
        t.silent = s.silent ∧ t.gap = (match x with | .a => s.gap | .b => .stopped)) ∧
    (∀ s : State, s.LanesAgree → s.mode = .ready → s.silent = false →
      ∃ t, exec .breakDetected s = .next t ∧ s.LinkWorkGone t .b ∧
        t.linkB = { Link.init with notices := [⟨0#8, 0, .started .link .break_⟩], seq := 1#8 } ∧
        t.silent = true ∧ t.gap = .stopped) ∧
    (∀ s : State, s.mode ≠ .ready ∨ s.silent = true → exec .breakDetected s = .next s) ∧
    ∀ s : State, exec .breakEnd s = .next { s with silent := false }

/-- SYNC names a formed gang and a timeout of 1 to 60000 ms; on an empty queue it is answered at once with the last outcome,
else it becomes pending with a reservation at the tail of the reply queue. At the run-out of its timer the
reservation becomes the reply SYNC_TIMEOUT in the reservation's place (with no SYNC pending the row has no effect: log 3). -/
def Obligations.SyncWaitsForTheGang : Prop :=
  (∀ (s : State) (x : LinkId) (r : Request) (rest : List Request) (g hi lo : Byte), s.Takes x r rest →
      r.code = 0x05#8 → r.payload = [g, hi, lo] →
      let timeout := hi.toNat * 256 + lo.toNat
      exec (.sync x) s = .next
        (match s.gangAt g.toNat with
        | none => s.answered x r rest [7#8]
        | some (_, G) =>
          if timeout = 0 ∨ 60000 < timeout then s.answered x r rest [3#8]
          else if G.queue = [] then s.answered x r rest ([0#8, g] ++ u8 G.last.num)
          else
            s.setLink x
              { s.link x with
                intake := rest
                sync := some ⟨r.tag, Fin.ofNat 8 g.toNat, .running timeout⟩
                replies := (s.link x).replies ++ [.reservation] })) ∧
    (∀ (s : State) (x : LinkId) (p : PendingSync), s.mode = .ready → (s.link x).sync = some p →
      exec (.syncTimerExpiry x) s = .next
        (s.setLink x
          { s.link x with
            sync := none
            replies := replaceReservation ⟨p.tag, 0x05#8, [26#8] ++ u8 p.gang.val⟩ (s.link x).replies })) ∧
    (∀ (s : State) (x : LinkId), (s.link x).sync = none → exec (.syncTimerExpiry x) s = .next s) ∧
    ∀ (r : Reply) (before after : List ReplyEntry), .reservation ∉ before → .reservation ∉ after →
      replaceReservation r (before ++ .reservation :: after) = before ++ .reply r :: after

/-! ## The store area -/

/-- DEFINE is checked in the order of R10 and a refused one changes nothing. One that passes puts the new block in the lowest
free slot with the next generation, takes its granules from the first extent that is large enough, and fills every
byte of them with the fill byte, which is 0x00 when it is omitted. A name is folded to upper case, and a folded name is well
formed when it has 1 to 15 characters, begins with a letter A-Z and holds only letters, digits, underscores and hyphens
(R5). -/
def Obligations.DefineChecksAndCreates : Prop :=
  (∀ (s : State) (x : LinkId) (r : Request) (rest : List Request), s.Takes x r rest → r.code = 0x10#8 →
    let n := byteAt r.payload 0
    1 ≤ n → n ≤ 15 → r.payload.length = 5 + n ∨ r.payload.length = 6 + n →
    let name := foldName ((r.payload.drop 1).take n)
    let size := be32 r.payload (1 + n)
    let granules := (size + 63) / 64
    let fill := if r.payload.length = 6 + n then r.payload.getD (5 + n) 0x00#8 else 0x00#8
    let refused : Option Byte :=
      if nameWellFormed name = false ∨ size = 0 ∨ 131072 < size then some 3#8
      else if s.pack.state ≠ .idle then some 14#8
      else if s.blocks.any (fun e => e.2.name == name) then some 10#8
      else if (List.finRange 48).all (fun i => (s.block i).isSome) then some 11#8
      else if (s.free.map Extent.count).sum < granules then some 12#8
      else if (s.free.map Extent.count).foldr max 0 < granules then some 13#8
      else none
    match refused with
    | some status => exec (.define x) s = .next (s.answered x r rest [status])
    | none =>
      ∃ (i : SlotId) (low : List Extent) (e : Extent) (high : List Extent) (store : Mem),
        s.block i = none ∧ (∀ j : SlotId, j < i → s.block j ≠ none) ∧
        s.free = low ++ e :: high ∧ (∀ h ∈ low, h.count < granules) ∧ granules ≤ e.count ∧
        (∀ a, a < 131072 → store.get a =
          if 64 * e.base ≤ a ∧ a < 64 * e.base + 64 * granules then fill else s.store.get a) ∧
        let free := low ++ (if e.count = granules then high else ⟨e.base + granules, e.count - granules⟩ :: high)
        exec (.define x) s = .next
          (({ s with
              dir := s.dir.set i
                { gen := s.dir[i].gen + 1#8
                  block := some
                    { name := name, size := size, base := e.base, dest := none, refs := 0, readers := [], writer := none,
                      waiters := [] } }
              free := free
              store := store } : State).answered x r rest
            ([0#8] ++ u8 i.val ++ [s.dir[i].gen + 1#8] ++ u16 e.base ++ u16 granules ++
              u16 (free.map Extent.count).sum ++ u16 ((free.map Extent.count).foldr max 0)))) ∧
    (∀ name : List Byte, foldName name = name.map fun c =>
      if 0x61 ≤ c.toNat ∧ c.toNat ≤ 0x7A then BitVec.ofNat 8 (c.toNat - 0x20) else c) ∧
    ∀ name : List Byte, nameWellFormed name = true ↔
      let letter := fun c : Byte => 0x41 ≤ c.toNat ∧ c.toNat ≤ 0x5A
      1 ≤ name.length ∧ name.length ≤ 15 ∧ (∀ c ∈ name.head?, letter c) ∧
        ∀ c ∈ name, letter c ∨ (0x30 ≤ c.toNat ∧ c.toNat ≤ 0x39) ∨ c = 0x5F#8 ∨ c = 0x2D#8

/-- DELETE is refused when the handle resolves to no block, when the block is MOVING, and when its refs is above 0, in that
order. One that passes frees the slot, keeps the generation and every store byte, and returns the block's granules. -/
def Obligations.DeleteReturnsTheGranules : Prop :=
  ∀ (s : State) (x : LinkId) (r : Request) (rest : List Request) (slot gen : Byte), s.Takes x r rest → r.code = 0x11#8 →
    r.payload = [slot, gen] →
    exec (.delete x) s = .next
      (match s.resolve slot.toNat gen with
      | none => s.answered x r rest [8#8]
      | some (i, b) =>
        if b.dest ≠ none then s.answered x r rest [16#8]
        else if 0 < b.refs then s.answered x r rest [17#8]
        else
          let free := giveBack ⟨b.base, (b.size + 63) / 64⟩ s.free
          ({ s with dir := s.dir.set i ⟨s.dir[i].gen, none⟩, free := free } : State).answered x r rest
            ([0#8] ++ u16 ((b.size + 63) / 64) ++ u16 (free.map Extent.count).sum ++
              u16 ((free.map Extent.count).foldr max 0) ++ u8 free.length))

/-- Granules returned to a sound free list that does not hold them leave a sound list, merged with its neighbours, that
holds exactly the old granules and the returned ones. First-fit finds none when the largest extent is too small; else it
takes the lowest granules of the first extent that is large enough, and exactly these leave the list. -/
def Obligations.FreeListMergesAndAllocates : Prop :=
  (∀ (l : List Extent) (e : Extent), FreeListSound l → 1 ≤ e.count → e.base + e.count ≤ 2048 →
      (∀ h ∈ l, h.base + h.count ≤ e.base ∨ e.base + e.count ≤ h.base) →
      FreeListSound (giveBack e l) ∧
        (∀ n, (∃ h ∈ giveBack e l, h.covers n = true) ↔ e.covers n = true ∨ ∃ h ∈ l, h.covers n = true) ∧
        ((giveBack e l).map Extent.count).sum = (l.map Extent.count).sum + e.count) ∧
    (∀ (n : Nat) (l : List Extent), allocate n l = none ↔ ∀ e ∈ l, e.count < n) ∧
    (∀ (n base : Nat) (l m : List Extent), allocate n l = some (base, m) ↔
      ∃ (low : List Extent) (e : Extent) (high : List Extent),
        l = low ++ e :: high ∧ (∀ h ∈ low, h.count < n) ∧ n ≤ e.count ∧ base = e.base ∧
          m = low ++ (if e.count = n then high else ⟨e.base + n, e.count - n⟩ :: high)) ∧
    ∀ (n base : Nat) (l m : List Extent), FreeListSound l → 1 ≤ n → allocate n l = some (base, m) →
      FreeListSound m ∧ (∀ k, base ≤ k → k < base + n → ∃ h ∈ l, h.covers k = true) ∧
        ∀ k, (∃ h ∈ m, h.covers k = true) ↔ (∃ h ∈ l, h.covers k = true) ∧ ¬(base ≤ k ∧ k < base + n)

/-- LOOKUP folds its name (DefineChecksAndCreates says how) and reports the handle, the size and the state of the block that
carries it, or is refused NO_SUCH_BLOCK; it changes no state. -/
def Obligations.LookupFindsTheName : Prop :=
  ∀ (s : State) (x : LinkId) (r : Request) (rest : List Request) (n : Byte) (chars : List Byte), s.Takes x r rest →
    r.code = 0x12#8 → r.payload = n :: chars → chars.length = n.toNat → 1 ≤ n.toNat → n.toNat ≤ 15 →
    ((∀ (i : SlotId) (b : Block), s.block i = some b → b.name ≠ foldName chars) →
        exec (.lookup x) s = .next (s.answered x r rest [8#8])) ∧
      ∀ (i : SlotId) (b : Block), s.block i = some b → b.name = foldName chars →
        (∀ (j : SlotId) (c : Block), s.block j = some c → c.name = foldName chars → j = i) →
        exec (.lookup x) s = .next (s.answered x r rest
          ([0#8] ++ u8 i.val ++ [s.dir[i].gen] ++ u32 b.size ++ [if b.dest = none then 0#8 else 1#8]))

/-- A handle resolves to the block in its slot while the generations agree; DESCRIBE reports the block's whole record, and
CATALOG a page of up to 8 blocks in ascending order of base. Neither changes any state. -/
def Obligations.DescribeAndCatalogReportTheDirectory : Prop :=
  (∀ (s : State) (slot : Nat) (gen : Byte) (i : SlotId) (b : Block),
      s.resolve slot gen = some (i, b) ↔ slot = i.val ∧ s.dir[i].gen = gen ∧ s.block i = some b) ∧
    (∀ (s : State) (x : LinkId) (r : Request) (rest : List Request) (slot gen : Byte), s.Takes x r rest →
      r.code = 0x13#8 → r.payload = [slot, gen] →
      exec (.describe x) s = .next (s.answered x r rest
        (match s.resolve slot.toNat gen with
        | none => [8#8]
        | some (_, b) =>
          [0#8, slot, gen] ++ (u8 b.name.length ++ b.name) ++ u32 b.size ++ u16 b.base ++ u16 ((b.size + 63) / 64) ++
            [if b.dest = none then 0#8 else 1#8] ++ u16 (b.dest.getD 0xFFFF) ++ u8 b.refs ++
            (u8 b.readers.length ++ b.readers.flatMap fun g => u8 g.val) ++ u8 ((b.writer.map Fin.val).getD 0xFF) ++
            (u8 b.waiters.length ++ b.waiters.flatMap fun w =>
              u16 w.job ++ u8 w.gang.val ++ [if w.write then 1#8 else 0#8])))) ∧
    ∀ (s : State) (x : LinkId) (r : Request) (rest : List Request) (start : Byte), s.Takes x r rest →
      r.code = 0x14#8 → r.payload = [start] →
      ∃ order : List (SlotId × Block), order.Perm s.blocks ∧ order.Pairwise (fun e f => e.2.base ≤ f.2.base) ∧
        exec (.catalog x) s = .next (s.answered x r rest
          (if s.blocks.length < start.toNat then [3#8]
          else
            let page := (order.drop start.toNat).take 8
            [0#8] ++ u8 s.blocks.length ++ [start] ++
              (u8 page.length ++ page.flatMap fun e =>
                u8 e.1.val ++ [s.dir[e.1].gen] ++ (u8 e.2.name.length ++ e.2.name) ++ u32 e.2.size ++ u16 e.2.base ++
                  u16 ((e.2.size + 63) / 64) ++ [if e.2.dest = none then 0#8 else 1#8])))

/-- WRITE is checked in the order of R18 with the access condition of no readers, no writer and not MOVING. One that passes
makes data byte k the block byte offset + k, keeps every other store byte, and answers the count. -/
def Obligations.WriteStoresTheData : Prop :=
  ∀ (s : State) (x : LinkId) (r : Request) (rest : List Request) (slot gen o3 o2 o1 o0 : Byte) (data : List Byte),
    s.Takes x r rest → r.code = 0x16#8 → r.payload = [slot, gen, o3, o2, o1, o0] ++ data → data.length ≤ 226 →
    let offset := ((o3.toNat * 256 + o2.toNat) * 256 + o1.toNat) * 256 + o0.toNat
    match s.resolve slot.toNat gen with
    | none => exec (.write x) s = .next (s.answered x r rest [8#8])
    | some (_, b) =>
      if data.length = 0 ∨ 224 < data.length then exec (.write x) s = .next (s.answered x r rest [3#8])
      else if ¬(b.readers = [] ∧ b.writer = none ∧ b.dest = none) then
        exec (.write x) s = .next (s.answered x r rest [16#8])
      else if b.size < offset + data.length then exec (.write x) s = .next (s.answered x r rest [18#8])
      else
        ∃ store : Mem,
          exec (.write x) s = .next (({ s with store := store } : State).answered x r rest ([0#8] ++ u8 data.length)) ∧
          (∀ k, k < data.length → 64 * b.base + offset + k < 131072 →
            store.get (64 * b.base + offset + k) = data.getD k 0x00#8) ∧
          ∀ a, a < 64 * b.base + offset ∨ 64 * b.base + offset + data.length ≤ a → store.get a = s.store.get a

/-- READ is checked in the order of R18 with the access condition of no writer and not MOVING. One that passes answers the
offset, the count and the bytes, and changes no state. -/
def Obligations.ReadReturnsTheBytes : Prop :=
  ∀ (s : State) (x : LinkId) (r : Request) (rest : List Request) (slot gen o3 o2 o1 o0 count : Byte),
    s.Takes x r rest → r.code = 0x17#8 → r.payload = [slot, gen, o3, o2, o1, o0, count] →
    let offset := ((o3.toNat * 256 + o2.toNat) * 256 + o1.toNat) * 256 + o0.toNat
    exec (.read x) s = .next (s.answered x r rest
      (match s.resolve slot.toNat gen with
      | none => [8#8]
      | some (_, b) =>
        if count.toNat = 0 ∨ 224 < count.toNat then [3#8]
        else if ¬(b.writer = none ∧ b.dest = none) then [16#8]
        else if b.size < offset + count.toNat then [18#8]
        else
          [0#8, o3, o2, o1, o0, count] ++
            (List.range count.toNat).map fun k => s.store.get (64 * b.base + offset + k)))

/-- FILL is checked in the order of R18 with the access condition of WRITE. One that passes sets count bytes to the fill byte,
keeps every other store byte, and answers the count. -/
def Obligations.FillSetsTheBytes : Prop :=
  ∀ (s : State) (x : LinkId) (r : Request) (rest : List Request) (slot gen o3 o2 o1 o0 c3 c2 c1 c0 fill : Byte),
    s.Takes x r rest → r.code = 0x18#8 → r.payload = [slot, gen, o3, o2, o1, o0, c3, c2, c1, c0, fill] →
    let offset := ((o3.toNat * 256 + o2.toNat) * 256 + o1.toNat) * 256 + o0.toNat
    let count := ((c3.toNat * 256 + c2.toNat) * 256 + c1.toNat) * 256 + c0.toNat
    match s.resolve slot.toNat gen with
    | none => exec (.fill x) s = .next (s.answered x r rest [8#8])
    | some (_, b) =>
      if count = 0 ∨ 131072 < count then exec (.fill x) s = .next (s.answered x r rest [3#8])
      else if ¬(b.readers = [] ∧ b.writer = none ∧ b.dest = none) then
        exec (.fill x) s = .next (s.answered x r rest [16#8])
      else if b.size < offset + count then exec (.fill x) s = .next (s.answered x r rest [18#8])
      else
        ∃ store : Mem,
          exec (.fill x) s = .next (({ s with store := store } : State).answered x r rest [0#8, c3, c2, c1, c0]) ∧
          (∀ k, k < count → 64 * b.base + offset + k < 131072 → store.get (64 * b.base + offset + k) = fill) ∧
          ∀ a, a < 64 * b.base + offset ∨ 64 * b.base + offset + count ≤ a → store.get a = s.store.get a

/-- PACK is refused STORE_BUSY unless the pack state is IDLE; accepted, it records the link, sets the cursor and both counts
to 0, makes the state RUNNING, and answers the number of free extents. STOP-PACK is answered NOT_PACKING in IDLE, ends
the pack at once with PACK_DONE STOPPED when no move is in flight, and otherwise makes or keeps the state STOPPING. -/
def Obligations.PackStartsAndStops : Prop :=
  (∀ (s : State) (x : LinkId) (r : Request) (rest : List Request), s.Takes x r rest → r.code = 0x19#8 → r.payload = [] →
      exec (.pack x) s = .next
        (if s.pack.state ≠ .idle then s.answered x r rest [14#8]
        else
          ({ s with
              pack :=
                { state := .running, link := some x, cursor := 0, move := s.pack.move, moves := 0, barriers := 0 } } :
              State).answered x r rest ([0#8] ++ u8 s.free.length))) ∧
    ∀ (s : State) (x y : LinkId) (r : Request) (rest : List Request), s.Takes x r rest → r.code = 0x1A#8 →
      r.payload = [] →
      (s.pack.state = .idle → exec (.stopPack x) s = .next (s.answered x r rest [15#8])) ∧
        (s.pack.state = .running → s.pack.move = none → s.pack.link = some y →
          exec (.stopPack x) s = .next
            ((({ s with pack := { s.pack with state := .idle, link := none } } : State).notify y
              (.packDone true s.pack.moves s.pack.barriers s.free.length
                ((s.free.map Extent.count).foldr max 0))).answered x r rest [0#8, 0#8])) ∧
        (s.pack.state = .running → s.pack.move ≠ none →
          exec (.stopPack x) s = .next
            (({ s with pack := { s.pack with state := .stopping } } : State).answered x r rest [0#8, 2#8])) ∧
        (s.pack.state = .stopping → exec (.stopPack x) s = .next (s.answered x r rest [0#8, 2#8]))

/-- A visit is made while the pack RUNS with no move in flight: it chooses the block with the lowest base at or above the
cursor; with none the pack ends COMPLETE with PACK_DONE; a block with no free extent directly below it stays, one that
is held is a barrier, and any other begins its move onto that extent. At any other moment no visit happens (log 3). -/
def Obligations.PackVisitStaysMovesOrEnds : Prop :=
  (∀ s : State, s.mode = .ready → s.pack.state = .running → s.pack.move = none →
      ((∀ (i : SlotId) (b : Block), s.block i = some b → b.base < s.pack.cursor) → ∀ y : LinkId, s.pack.link = some y →
        exec .packVisit s = .next
          (({ s with pack := { s.pack with state := .idle, link := none } } : State).notify y
            (.packDone false s.pack.moves s.pack.barriers s.free.length
              ((s.free.map Extent.count).foldr max 0)))) ∧
        ∀ (i : SlotId) (b : Block), s.block i = some b → s.pack.cursor ≤ b.base →
          (∀ (j : SlotId) (c : Block), s.block j = some c → s.pack.cursor ≤ c.base → j ≠ i → b.base < c.base) →
          ((∀ e ∈ s.free, e.base + e.count ≠ b.base) →
              exec .packVisit s = .next { s with pack := { s.pack with cursor := b.base + (b.size + 63) / 64 } }) ∧
            ∀ e ∈ s.free, e.base + e.count = b.base → FreeListSound s.free →
              exec .packVisit s = .next
                (if b.readers = [] ∧ b.writer = none then
                  { s with
                    dir := s.dir.set i ⟨s.dir[i].gen, some { b with dest := some e.base }⟩
                    free := s.free.filter fun h => h != e
                    pack :=
                      { s.pack with
                        move := some ⟨i, b.base, e.base, (b.size + 63) / 64⟩
                        cursor := e.base + (b.size + 63) / 64 } }
                else
                  { s with
                    pack :=
                      { s.pack with
                        cursor := b.base + (b.size + 63) / 64, barriers := s.pack.barriers + 1 } })) ∧
    ∀ s : State, s.mode ≠ .ready ∨ s.pack.state ≠ .running ∨ s.pack.move ≠ none → exec .packVisit s = .next s

/-- At the completion of a move the block stands at the destination base, READY, byte k of the destination holds what byte k of
the source held, every other store byte is kept, the vacated granules are returned, moves grows by 1 and the grant
evaluation of the block follows; a STOPPING pack then ends STOPPED. With no move in flight nothing happens (log 3). -/
def Obligations.MoveCompletionRelocatesTheBlock : Prop :=
  (∀ (s : State) (m : Move) (b : Block), s.mode = .ready → s.pack.move = some m → s.block m.slot = some b →
      m.src + m.granules ≤ 2048 → m.dst + m.granules ≤ 2048 →
      ∃ store : Mem,
        (∀ k, k < 64 * m.granules → store.get (64 * m.dst + k) = s.store.get (64 * m.src + k)) ∧
        (∀ a, a < 64 * m.dst ∨ 64 * m.dst + 64 * m.granules ≤ a → store.get a = s.store.get a) ∧
        let moved : State :=
          { s with
            dir := s.dir.set m.slot ⟨s.dir[m.slot].gen, some { b with base := m.dst, dest := none }⟩
            store := store
            free := giveBack ⟨m.dst + m.granules, m.src - m.dst⟩ s.free
            pack := { s.pack with move := none, moves := s.pack.moves + 1 } }
        (s.pack.state ≠ .stopping → exec .moveCompletion s = .next (moved.evaluate m.slot)) ∧
          ∀ y : LinkId, s.pack.state = .stopping → s.pack.link = some y →
            exec .moveCompletion s = .next
              (({ moved.evaluate m.slot with
                  pack := { moved.pack with state := .idle, link := none } } : State).notify y
                (.packDone true moved.pack.moves moved.pack.barriers moved.free.length
                  ((moved.free.map Extent.count).foldr max 0)))) ∧
    ∀ s : State, s.mode ≠ .ready ∨ s.pack.move = none → exec .moveCompletion s = .next s

/-! ## Block access control -/

/-- An activated job floats its gang's drivers, deasserts CTL, clears rest drive and claims its block: the claim is granted at
once when the waiter list is empty, the block is not MOVING and the access is compatible, and is appended otherwise. A grant
makes the active job PAUSED in a PAUSED gang, and otherwise RUNNING with its first beat begun if it may (that a PAUSING
gang, which no run shows a grant, counts as RUNNING is log 23). The readers stay an ascending set. -/
def Obligations.ActivationClaimsTheBlock : Prop :=
  (∀ (s : State) (g : GangId) (G : Gang) (J : Job) (later : List Job) (b : Block),
    s.gang g = some G → G.queue = J :: later → s.block J.slot = some b →
    let write := J.dir == .capture
    let G' : Gang := { G with ctl := false, restDrive := false, beat := some Beat.init }
    let ready : State := (s.setDrivers G false).setGang g (some G')
    (b.waiters = [] → b.dest = none → b.writer = none → (J.dir = .send ∨ b.readers = []) →
        s.activate g =
          (ready.setBlock J.slot (some
            (if write then { b with writer := some g } else { b with readers := addReader g b.readers }))).handGrant g) ∧
      (¬(b.waiters = [] ∧ b.dest = none ∧ b.writer = none ∧ (J.dir = .send ∨ b.readers = [])) →
        s.activate g =
          (ready.setBlock J.slot (some { b with waiters := b.waiters ++ [⟨J.id, g, write⟩] })).setGang g
            (some { G' with queue := { J with state := .waiting } :: later }))) ∧
    (∀ (s : State) (g : GangId) (G : Gang) (J : Job) (later : List Job), s.gang g = some G → G.queue = J :: later →
      s.handGrant g =
        if G.run = .paused then s.setGang g (some { G with queue := { J with state := .paused } :: later })
        else (s.setGang g (some { G with queue := { J with state := .running } :: later })).tryBegin g) ∧
    ∀ (g : GangId) (readers : List GangId), readers.Pairwise (· < ·) →
      (addReader g readers).Pairwise (· < ·) ∧ ∀ h : GangId, h ∈ addReader g readers ↔ h = g ∨ h ∈ readers

/-- A grant evaluation grants the oldest waiting writer alone when nobody holds the block, or the run of readers at the head
when the block has no writer, and nothing while the block is MOVING; after it a READY block whose list is not empty has a
holder that its oldest waiter cannot share with. (What a grant does to the engine, and how a reader is added, are stated in
ActivationClaimsTheBlock.) -/
def Obligations.EvaluationGrantsFromTheHead : Prop :=
  (∀ (s : State) (i : SlotId) (b : Block), s.block i = some b →
      (b.dest ≠ none ∨ b.waiters = [] → s.evaluate i = s) ∧
        (∀ (w : Waiter) (ws : List Waiter), b.dest = none → b.waiters = w :: ws → w.write = true →
          s.evaluate i =
            if b.readers = [] ∧ b.writer = none then
              (s.setBlock i (some { b with writer := some w.gang, waiters := ws })).handGrant w.gang
            else s) ∧
        ∀ (w : Waiter) (ws granted left : List Waiter), b.dest = none → b.waiters = w :: ws → w.write = false →
          w :: ws = granted ++ left → (∀ v ∈ granted, v.write = false) → (∀ v ∈ left.head?, v.write = true) →
          s.evaluate i =
            if b.writer ≠ none then s
            else
              granted.foldl (fun s v => s.handGrant v.gang)
                (s.setBlock i (some
                  { b with
                    readers := granted.foldl (fun readers v => addReader v.gang readers) b.readers
                    waiters := left }))) ∧
    ∀ (s : State) (i : SlotId), ∀ b ∈ (s.evaluate i).block i, b.dest = none → ∀ w ∈ b.waiters.head?,
      b.writer.isSome = true ∨ (w.write = true ∧ b.readers ≠ [])

/-! ## The gangs area -/

/-- FORM is refused BAD_FIELD, LANE_TAKEN or GANG_TABLE_FULL in that order and a refused one changes nothing. One that passes
creates the gang in the lowest free slot with the default of every field, and its lanes keep their latched bytes with
floated drivers. -/
def Obligations.FormCreatesAGang : Prop :=
  ∀ (s : State) (x : LinkId) (r : Request) (rest : List Request) (first width : Byte), s.Takes x r rest →
    r.code = 0x20#8 → r.payload = [first, width] →
    let within := fun i : LaneId => first.toNat ≤ i.val ∧ i.val < first.toNat + width.toNat
    let refused : Option Byte :=
      if 9 < first.toNat ∨ width.toNat = 0 ∨ 10 < first.toNat + width.toNat then some 3#8
      else if ∃ i : LaneId, within i ∧ s.lanes[i].gang ≠ none then some 19#8
      else if ∀ g : GangId, s.gang g ≠ none then some 20#8
      else none
    match refused with
    | some status => exec (.form x) s = .next (s.answered x r rest [status])
    | none =>
      ∃ (g : GangId) (lanes : Vector Lane 10),
        s.gang g = none ∧ (∀ h : GangId, h < g → s.gang h ≠ none) ∧
        (∀ i : LaneId, lanes[i] =
          if within i then { gang := some g, latched := s.lanes[i].latched, enabled := false } else s.lanes[i]) ∧
        exec (.form x) s = .next
          (({ s with
              lanes := lanes
              gangs := s.gangs.set g (some
                { owner := x, first := Fin.ofNat 10 first.toNat, width := width.toNat
                  cfg :=
                    { mode := .manual, manualOut := false, descending := false, dataNeg := false, ctlNeg := false
                      flgNeg := false, openDrain := false, pullUps := true, holdOff := false, restHold := false
                      watch := false, flagGate := false }
                  time := { settle := 1000, pulse := 1000, period := 10000, timeout := 1000 }
                  ctl := false, restDrive := false, watched := s.pins[Fin.ofNat 10 first.toNat].flg
                  run := .running, last := .none, queue := [], beat := none }) } : State).answered x r rest
            ([0#8] ++ u8 g.val ++ [first, width]))

/-- DISSOLVE is refused NO_SUCH_GANG, NOT_OWNER or GANG_BUSY in that order; one that passes frees the slot and its lanes, which
keep their latched bytes, and leaves the notices of the owner link waiting in their order: each keeps its sequence, its
dropped count and its payload, and only their mark (log 16) changes, so that a later edge of a new gang in the slot queues
a new notice. -/
def Obligations.DissolveFreesTheGang : Prop :=
  (∀ (s : State) (x : LinkId) (r : Request) (rest : List Request) (g : Byte), s.Takes x r rest → r.code = 0x21#8 →
    r.payload = [g] →
    match s.gangAt g.toNat with
    | none => exec (.dissolve x) s = .next (s.answered x r rest [7#8])
    | some (h, G) =>
      if G.owner ≠ x then exec (.dissolve x) s = .next (s.answered x r rest [6#8])
      else if G.queue ≠ [] then exec (.dissolve x) s = .next (s.answered x r rest [21#8])
      else
        ∃ lanes : Vector Lane 10,
          (∀ i : LaneId, lanes[i] =
            if G.has i.val then { gang := none, latched := s.lanes[i].latched, enabled := false } else s.lanes[i]) ∧
          exec (.dissolve x) s = .next
            ((({ s with lanes := lanes, gangs := s.gangs.set h none } : State).orphanEdges x (· == h)).answered x r rest
              [0#8, g])) ∧
    (∀ (s : State) (x : LinkId) (hit : GangId → Bool),
      s.orphanEdges x hit =
        s.setLink x { s.link x with notices := (s.link x).notices.map (Notice.orphan hit) }) ∧
    (∀ (n : Notice) (hit : GangId → Bool),
      (n.orphan hit).seq = n.seq ∧ (n.orphan hit).dropped = n.dropped ∧ (n.orphan hit).frame = n.frame ∧
        (∀ g : GangId, (n.orphan hit).isEdgeOf g = (n.isEdgeOf g && !hit g))) ∧
    ∀ (s : State) (x : LinkId) (g : GangId) (level : Bool),
      (s.orphanEdges x (· == g)).notifyEdge x g level =
        (s.orphanEdges x (· == g)).notify x (.flagEdge g level 1 true)

/-- CONFIGURE is refused NO_SUCH_GANG, NOT_OWNER, BAD_FIELD, GANG_BUSY or TIMING_CONFLICT in that order. One that passes replaces
all twelve fields and acts on the lines: the drivers follow the MANUAL direction or a rest drive that stays, CTL is
deasserted on leaving MANUAL, and the watched level is the present FLG level under the new polarity. -/
def Obligations.ConfigureReplacesTheFields : Prop :=
  ∀ (s : State) (x : LinkId) (r : Request) (rest : List Request) (g mode : Byte) (flags : List Byte), s.Takes x r rest →
    r.code = 0x22#8 → r.payload = g :: mode :: flags → flags.length = 11 →
    let on := fun k => flags.getD k 0x00#8 == 1#8
    match s.gangAt g.toNat with
    | none => exec (.configure x) s = .next (s.answered x r rest [7#8])
    | some (h, G) =>
      if G.owner ≠ x then exec (.configure x) s = .next (s.answered x r rest [6#8])
      else if 4 < mode.toNat ∨ ∃ b ∈ flags, 1 < b.toNat then exec (.configure x) s = .next (s.answered x r rest [3#8])
      else if G.queue ≠ [] then exec (.configure x) s = .next (s.answered x r rest [21#8])
      else if mode.toNat = 4 ∧ ¬(G.time.settle < G.time.period ∧ G.time.pulse < G.time.period) then
        exec (.configure x) s = .next (s.answered x r rest [24#8])
      else
        ∃ (c : GangConfig) (lanes : Vector Lane 10),
          c.mode.num = mode.toNat ∧ c.manualOut = on 0 ∧ c.descending = on 1 ∧ c.dataNeg = on 2 ∧ c.ctlNeg = on 3 ∧
          c.flgNeg = on 4 ∧ c.openDrain = on 5 ∧ c.pullUps = on 6 ∧ c.holdOff = on 7 ∧ c.restHold = on 8 ∧
          c.watch = on 9 ∧ c.flagGate = on 10 ∧
          let restDrive := G.restDrive && G.cfg.mode != .manual && c.mode != .manual && c.restHold
          let held := c.holdOff && (List.finRange 10).any fun i => G.has i.val && !s.pins[i].hold
          (∀ i : LaneId, lanes[i] =
            if G.has i.val then
              { s.lanes[i] with enabled := ((c.mode == .manual && c.manualOut) || restDrive) && !held }
            else s.lanes[i]) ∧
          exec (.configure x) s = .next
            (({ s with
                lanes := lanes
                gangs := s.gangs.set h (some
                  { G with
                    cfg := c
                    restDrive := restDrive
                    ctl := if G.cfg.mode = .manual ∧ c.mode ≠ .manual then false else G.ctl
                    watched := s.pins[G.first].flg ^^ c.flgNeg }) } : State).answered x r rest
              ([0#8, mode] ++ flags))

/-- TIMING is refused NO_SUCH_GANG, NOT_OWNER, BAD_FIELD, GANG_BUSY or TIMING_CONFLICT in that order; one that passes replaces
the four fields with the applied values and changes nothing else. The applied value of a requested time is the least
member of the representable set that is not less than it. -/
def Obligations.TimingAppliesTheLeastMember : Prop :=
  (∀ (s : State) (x : LinkId) (r : Request) (rest : List Request), s.Takes x r rest → r.code = 0x23#8 →
      r.payload.length = 15 →
      let settle := be32 r.payload 1
      let pulse := be32 r.payload 5
      let period := be32 r.payload 9
      let timeout := be16 r.payload 13
      let outside := fun t => t = 0 ∨ 9900000 < t
      exec (.timing x) s = .next
        (match s.gangAt (byteAt r.payload 0) with
        | none => s.answered x r rest [7#8]
        | some (h, G) =>
          if G.owner ≠ x then s.answered x r rest [6#8]
          else if outside settle ∨ outside pulse ∨ outside period ∨ 60000 < timeout then s.answered x r rest [3#8]
          else if G.queue ≠ [] then s.answered x r rest [21#8]
          else if G.cfg.mode = .clocked ∧
              ¬(appliedTime settle < appliedTime period ∧ appliedTime pulse < appliedTime period) then
            s.answered x r rest [24#8]
          else
            ({ s with
                gangs := s.gangs.set h (some
                  { G with
                    time :=
                      { settle := appliedTime settle, pulse := appliedTime pulse, period := appliedTime period,
                        timeout := timeout } }) } : State).answered x r rest
              ([0#8] ++ u32 (appliedTime settle) ++ u32 (appliedTime pulse) ++ u32 (appliedTime period) ++
                u16 timeout))) ∧
    let member := fun m : Nat =>
      (∃ k, 1 ≤ k ∧ k ≤ 99 ∧ m = 100 * k) ∨ (∃ k, 10 ≤ k ∧ k ≤ 99 ∧ m = 1000 * k) ∨
        (∃ k, 10 ≤ k ∧ k ≤ 99 ∧ m = 10000 * k) ∨ ∃ k, 10 ≤ k ∧ k ≤ 99 ∧ m = 100000 * k
    ∀ t : Nat, 1 ≤ t → t ≤ 9900000 →
      member (appliedTime t) ∧ t ≤ appliedTime t ∧ ∀ m, member m → t ≤ m → appliedTime t ≤ m

/-- GANG-STATUS and GET-LINES report a gang to either link, or are refused NO_SUCH_GANG; but for the board's present levels
that GET-LINES reads (log 8) and the count of readings (log 9) they change no state. A request's gang byte names the formed gang in the slot of that number.
An empty queue gives the job id 0 and the state 0 (R133). That the lane entries stand behind a count byte is log 13, the
order and the widths of the fields of GANG-STATUS are log 14, and that beats done stands behind them is log 26. -/
def Obligations.GangStatusAndGetLinesReport : Prop :=
  (∀ (s : State) (x : LinkId) (r : Request) (rest : List Request) (n : Byte), s.Takes x r rest → r.code = 0x24#8 →
      r.payload = [n] →
      exec (.gangStatus x) s = .next (s.answered x r rest
        (match s.gangAt n.toNat with
        | none => [7#8]
        | some (_, G) =>
          [0#8, n] ++ u8 (match G.owner with | .a => 0 | .b => 1) ++ u8 G.first.val ++ u8 G.width ++
            (u8 G.cfg.mode.num ++
              ([G.cfg.manualOut, G.cfg.descending, G.cfg.dataNeg, G.cfg.ctlNeg, G.cfg.flgNeg, G.cfg.openDrain,
                G.cfg.pullUps, G.cfg.holdOff, G.cfg.restHold, G.cfg.watch, G.cfg.flagGate].flatMap flagByte)) ++
            u32 G.time.settle ++ u32 G.time.pulse ++ u32 G.time.period ++ u16 G.time.timeout ++
            u8 G.run.num ++ u8 G.last.num ++ u8 G.queue.length ++
            (match G.queue with
            | [] => [0#8, 0#8, 0#8]
            | J :: _ => u16 J.id ++ u8 J.state.num) ++
            [G.ctl, s.pins[G.first].flg ^^ G.cfg.flgNeg, s.heldOff G, s.lanes[G.first].enabled,
              G.restDrive].flatMap flagByte ++
            u32 (match G.beat with | none => 0 | some B => B.done)))) ∧
    (∀ (s : State) (n : Nat) (g : GangId) (G : Gang), s.gangAt n = some (g, G) ↔ n = g.val ∧ s.gang g = some G) ∧
    ([Mode.manual, .lockstep, .answered, .strobed, .clocked].map Mode.num = [0, 1, 2, 3, 4] ∧
      [RunState.running, .pausing, .paused].map RunState.num = [0, 1, 2] ∧
      [LastOutcome.none, .done, .faulted, .cancelled, .dropped].map LastOutcome.num = [0, 1, 2, 3, 4] ∧
      [JobState.queued, .waiting, .running, .paused].map JobState.num = [0, 1, 2, 3] ∧
      [PackState.idle, .running, .stopping].map PackState.num = [0, 1, 2]) ∧
    (∀ (s : State) (G : Gang), s.heldOff G = true ↔
      G.cfg.holdOff = true ∧ ∃ i : LaneId, G.has i.val = true ∧ s.pins[i].hold = false) ∧
    ∀ (s : State) (x : LinkId) (r : Request) (rest : List Request) (n : Byte) (board : Board), s.Takes x r rest →
      r.code = 0x26#8 → r.payload = [n] →
      exec (.getLines x board) s = .next
        (match s.gangAt n.toNat with
        | none => s.answered x r rest [7#8]
        | some (_, G) =>
          let seen := s.senseBoard board
          seen.answered x r rest
            ([0#8] ++ ([G.ctl, s.pins[G.first].flg ^^ G.cfg.flgNeg, s.heldOff G,
                s.lanes[G.first].enabled].flatMap flagByte) ++
              (u8 G.beatLanes.length ++ G.beatLanes.flatMap fun i =>
                u8 i.val ++ [s.lanes[i].latched, seen.sensed G i] ++
                  ([seen.ctlPin i, s.pins[i].flg, s.pins[i].hold].flatMap flagByte))))

/-- What the lanes show. A lane whose drivers are floated senses what the board drives, and 1 on an undriven line under its
pull-up; an enabled PUSH_PULL lane senses its own latched byte where the board does not drive against it; an enabled
OPEN_DRAIN lane senses 0 wherever its own pin bit is 0. Bytes are logical: NEGATIVE data polarity complements them. ACT is
high exactly while the lane's drivers are enabled, and the data lines of a free lane float without a pull-up: where the
board does not drive them their level is a free value (log 9; the board's levels are log 8). -/
def Obligations.SensedBytesFollowTheLines : Prop :=
  (∀ (s : State) (i : LaneId) (k : Fin 8),
    s.actPin i = s.lanes[i].enabled ∧
      (∀ (g : GangId) (G : Gang), s.lanes[i].gang = some g → s.gang g = some G → s.lanePins i = s.dataPins G i) ∧
      (s.lanes[i].gang = none →
        (s.lanePins i).getLsbD k.val =
          if s.pins[i].board.driven.getLsbD k.val then s.pins[i].board.level.getLsbD k.val
          else (Config.freeLevel s.fresh i.val).getLsbD k.val)) ∧
  ∀ (s : State) (G : Gang) (i : LaneId) (k : Fin 8),
    let pin := (s.dataPins G i).getLsbD k.val
    let driven := s.pins[i].board.driven.getLsbD k.val
    let level := s.pins[i].board.level.getLsbD k.val
    let own := s.lanes[i].latched.getLsbD k.val ^^ G.cfg.dataNeg
    ((s.sensed G i).getLsbD k.val = (pin ^^ G.cfg.dataNeg)) ∧
      (s.lanes[i].enabled = false → driven = true → pin = level) ∧
      (s.lanes[i].enabled = false → driven = false → G.cfg.pullUps = true → pin = true) ∧
      (s.lanes[i].enabled = true → G.cfg.openDrain = false → driven = false ∨ level = own → pin = own) ∧
      (s.lanes[i].enabled = true → G.cfg.openDrain = true → own = false → pin = false) ∧
      (s.lanes[i].enabled = true → G.cfg.openDrain = true → driven = true → own = true → pin = level) ∧
      (s.lanes[i].enabled = true → G.cfg.openDrain = true → driven = false → own = true → G.cfg.pullUps = true →
        pin = true)

/-- SET-LINES is refused NO_SUCH_GANG, NOT_OWNER, BAD_FIELD or MODE_CONFLICT in that order; one that passes latches byte k on the
lane that the lane order gives, all together, and drives them exactly when the direction is OUT and the gang is not held
off. -/
def Obligations.SetLinesLatchesTheBytes : Prop :=
  ∀ (s : State) (x : LinkId) (r : Request) (rest : List Request) (g : Byte) (bytes : List Byte), s.Takes x r rest →
    r.code = 0x25#8 → r.payload = g :: bytes → bytes.length ≤ 10 →
    match s.gangAt g.toNat with
    | none => exec (.setLines x) s = .next (s.answered x r rest [7#8])
    | some (_, G) =>
      if G.owner ≠ x then exec (.setLines x) s = .next (s.answered x r rest [6#8])
      else if bytes.length ≠ G.width then exec (.setLines x) s = .next (s.answered x r rest [3#8])
      else if G.cfg.mode ≠ .manual then exec (.setLines x) s = .next (s.answered x r rest [23#8])
      else
        let driven := G.cfg.manualOut && !s.heldOff G
        ∃ lanes : Vector Lane 10,
          (∀ i : LaneId, lanes[i] =
            if G.first.val ≤ i.val ∧ i.val < G.first.val + G.width then
              { s.lanes[i] with
                latched := bytes.getD
                  (if G.cfg.descending then G.first.val + G.width - 1 - i.val else i.val - G.first.val) 0x00#8
                enabled := driven || s.lanes[i].enabled }
            else s.lanes[i]) ∧
          exec (.setLines x) s = .next
            (({ s with lanes := lanes } : State).answered x r rest [0#8, if driven then 1#8 else 0#8])

/-- SET-CONTROL is refused NO_SUCH_GANG, NOT_OWNER, BAD_FIELD or MODE_CONFLICT in that order; one that passes sets the gang's CTL
level, whether or not the gang is held off, and changes nothing else. The first lane's CTL pin follows under the CTL
polarity and every other CTL pin is low. -/
def Obligations.SetControlSetsCtl : Prop :=
  (∀ (s : State) (x : LinkId) (r : Request) (rest : List Request) (g level : Byte), s.Takes x r rest →
      r.code = 0x27#8 → r.payload = [g, level] →
      exec (.setControl x) s = .next
        (match s.gangAt g.toNat with
        | none => s.answered x r rest [7#8]
        | some (h, G) =>
          if G.owner ≠ x then s.answered x r rest [6#8]
          else if 1 < level.toNat then s.answered x r rest [3#8]
          else if G.cfg.mode ≠ .manual then s.answered x r rest [23#8]
          else
            ({ s with gangs := s.gangs.set h (some { G with ctl := level == 1#8 }) } : State).answered x r rest
              [0#8, level])) ∧
    ∀ (s : State) (i : LaneId),
      (s.lanes[i].gang = none → s.ctlPin i = false) ∧
        ∀ (g : GangId) (G : Gang), s.lanes[i].gang = some g → s.gang g = some G →
          s.ctlPin i = if i = G.first then G.ctl ^^ G.cfg.ctlNeg else false

/-! ## The jobs area -/

/-- SUBMIT is checked in the order of R117 and a refused one changes nothing. One that passes issues the id, creates the job
record, raises refs of the block, appends the job to the queue and, in an empty queue, activates it; the reply carries
the id, the resolved beats and the position. -/
def Obligations.SubmitChecksAndAccepts : Prop :=
  ∀ (s : State) (x : LinkId) (r : Request) (rest : List Request), s.Takes x r rest → r.code = 0x30#8 →
    r.payload.length = 13 →
    let p := r.payload
    let direction := byteAt p 1
    let offset := be32 p 4
    let repeats := byteAt p 10
    let refused := fun status : Byte => exec (.submit x) s = .next (s.answered x r rest [status])
    match s.gangAt (byteAt p 0) with
    | none => refused 7#8
    | some (g, G) =>
      match s.resolve (byteAt p 2) (p.getD 3 0x00#8) with
      | none => refused 8#8
      | some (i, b) =>
        let beats := if be16 p 8 = 0 then min 65535 ((b.size - offset) / G.width) else be16 p 8
        if G.owner ≠ x then refused 6#8
        else if 1 < direction ∨ 131071 < offset ∨ repeats = 0 ∨ (1 < repeats ∧ direction = 1) ∨ 1 < byteAt p 11 ∨
            1 < byteAt p 12 then refused 3#8
        else if G.cfg.mode = .manual then refused 23#8
        else if beats = 0 ∨ b.size < offset + beats * G.width then refused 18#8
        else if 6 ≤ G.queue.length then refused 22#8
        else if byteAt p 11 = 1 ∧ G.queue = [] ∧ G.last ≠ .done then refused 25#8
        else
          let job : Job :=
            { id := s.issueId, dir := if direction = 0 then .send else .capture, slot := i, gen := s.dir[i].gen,
              offset := offset, beats := beats, repeats := repeats, afterOk := byteAt p 11 == 1, quiet := byteAt p 12 == 1,
              state := .queued }
          let taken := s.popped x rest
          let queued : State :=
            { taken with
              nextId := if 65535 ≤ s.issueId then 1 else s.issueId + 1
              dir := s.dir.set i ⟨s.dir[i].gen, some { b with refs := b.refs + 1 }⟩
              gangs := s.gangs.set g (some { G with queue := G.queue ++ [job] }) }
          exec (.submit x) s = .next
            ((if G.queue = [] then queued.activate g else queued).pushReply x
              ⟨r.tag, 0x30#8, [0#8] ++ u16 s.issueId ++ u16 beats ++ u8 (G.queue.length + 1)⟩)

/-- The id that is issued is the first candidate from the counter, which goes from 65535 to 1, that no live job has; with at
most 48 live jobs there is one. -/
def Obligations.IssuedIdIsTheFirstFreeCandidate : Prop :=
  ∀ s : State, 1 ≤ s.nextId → s.nextId ≤ 65535 → s.liveJobs.length ≤ 48 →
    let candidate := fun k : Nat => (s.nextId - 1 + k) % 65535 + 1
    ∃ k, k ≤ 48 ∧ s.issueId = candidate k ∧ s.issueId ∉ s.liveIds ∧ ∀ j, j < k → candidate j ∈ s.liveIds

/-- CANCEL is refused NO_SUCH_JOB or NOT_OWNER in that order. A QUEUED job leaves its place with the after_ok jobs directly
behind it: refs, last outcome and the JOB_DROPPED notices follow, and nothing else of the gang changes. The active job's
beat is ended with CTL deasserted, and it departs CANCELLED without a notice of its own. -/
def Obligations.CancelRemovesTheJob : Prop :=
  ∀ (s : State) (x : LinkId) (r : Request) (rest : List Request) (hi lo : Byte), s.IdsDistinct → s.Takes x r rest →
    r.code = 0x31#8 → r.payload = [hi, lo] →
    let id := hi.toNat * 256 + lo.toNat
    (id = 0 ∨ id ∉ s.liveIds → exec (.cancel x) s = .next (s.answered x r rest [9#8])) ∧
      ∀ (g : GangId) (G : Gang) (before : List Job) (J : Job) (behind : List Job),
        s.gang g = some G → G.queue = before ++ J :: behind → J.id = id →
        (G.owner ≠ x → exec (.cancel x) s = .next (s.answered x r rest [6#8])) ∧
          (G.owner = x → before ≠ [] →
            let drops := behind.takeWhile Job.afterOk
            ∃ t, exec (.cancel x) s = .next t ∧
              t.gang g = some
                { G with
                  queue := before ++ behind.dropWhile Job.afterOk
                  last := if drops = [] then .cancelled else .dropped } ∧
              (∀ h : GangId, h ≠ g → t.gang h = s.gang h) ∧
              (∀ i : SlotId, t.block i =
                (s.block i).map fun b => { b with refs := b.refs - ((J :: drops).filter fun K => K.slot == i).length }) ∧
              t.lanes = s.lanes ∧ t.store = s.store ∧ t.nextId = s.nextId ∧ t.free = s.free ∧ t.pack = s.pack ∧
              t.pins = s.pins ∧ t.mode = s.mode ∧
              (t.link x).intake = rest ∧
              (t.link x).replies =
                (s.link x).replies ++ [.reply ⟨r.tag, 0x31#8, [0#8, hi, lo, 0#8, 0#8, 0#8, 0#8]⟩] ∧
              t.link x.other = s.link x.other ∧
              ((s.link x).notices.length + drops.length ≤ 16 →
                (t.link x).notices.map Notice.body =
                  (s.link x).notices.map Notice.body ++ drops.map fun K => .jobDropped K.id g id)) ∧
          ∀ B : Beat, G.owner = x → before = [] → G.beat = some B →
            exec (.cancel x) s = .next
              ((((s.popped x rest).setGang g (some { G with ctl := false })).departHead g .cancelled none).pushReply x
                ⟨r.tag, 0x31#8, [0#8, hi, lo] ++ u32 B.done⟩)

/-- HALT is refused NO_SUCH_GANG or NOT_OWNER in that order. On an empty queue it changes nothing; else every job leaves, the
last outcome is CANCELLED, CTL is deasserted, a PAUSING gang becomes PAUSED, no notice is queued on either link, a SYNC of
the other link on the gang is answered, and the reply carries the number of jobs removed. -/
def Obligations.HaltEmptiesTheQueue : Prop :=
  ∀ (s : State) (x : LinkId) (r : Request) (rest : List Request) (n : Byte), s.Takes x r rest → r.code = 0x32#8 →
    r.payload = [n] →
    match s.gangAt n.toNat with
    | none => exec (.halt x) s = .next (s.answered x r rest [7#8])
    | some (g, G) =>
      if G.owner ≠ x then exec (.halt x) s = .next (s.answered x r rest [6#8])
      else if G.queue = [] then exec (.halt x) s = .next (s.answered x r rest [0#8, 0#8])
      else
        ∃ (t : State) (restDrive : Bool), exec (.halt x) s = .next t ∧
          t.gang g = some
            { G with
              queue := [], beat := none, last := .cancelled, ctl := false, restDrive := restDrive
              run := if G.run = .pausing then .paused else G.run } ∧
          (∀ J ∈ G.queue.head?, ∀ B ∈ G.beat, restDrive = (G.cfg.restHold && J.dir == .send && B.drove)) ∧
          (∀ i : LaneId, G.has i.val = true → t.lanes[i].enabled = (restDrive && !s.heldOff G)) ∧
          (∀ i : SlotId, (t.block i).map Block.refs =
            (s.block i).map fun b => b.refs - (G.queue.filter fun K => K.slot == i).length) ∧
          (∀ y : LinkId, (t.link y).notices = (s.link y).notices) ∧
          (t.link x).intake = rest ∧
          (t.link x).replies = (s.link x).replies ++ [.reply ⟨r.tag, 0x32#8, [0#8] ++ u8 G.queue.length⟩] ∧
          (∀ p ∈ (s.link x.other).sync, p.gang = g → (t.link x.other).sync = none ∧
            (t.link x.other).replies =
              replaceReservation ⟨p.tag, 0x05#8, [0#8, n, 3#8]⟩ (s.link x.other).replies) ∧
          t.store = s.store ∧ t.free = s.free ∧ t.pack = s.pack ∧ t.nextId = s.nextId ∧ t.pins = s.pins ∧
          t.mode = s.mode

/-- PAUSE makes the gang PAUSING while a beat is in flight, and else PAUSED with a RUNNING active job PAUSED; on a PAUSING or
PAUSED gang it changes nothing. RESUME makes the gang RUNNING: a beat in flight goes on, and a PAUSED active job is RUNNING
again and its beat begins if it may. Both are refused NO_SUCH_GANG or NOT_OWNER in that order. -/
def Obligations.PauseAndResumeSetTheRunState : Prop :=
  (∀ (s : State) (x : LinkId) (r : Request) (rest : List Request) (n : Byte), s.Takes x r rest → r.code = 0x33#8 →
      r.payload = [n] →
      exec (.pause x) s = .next
        (match s.gangAt n.toNat with
        | none => s.answered x r rest [7#8]
        | some (g, G) =>
          if G.owner ≠ x then s.answered x r rest [6#8]
          else
            match G.run with
            | .pausing => s.answered x r rest [0#8, 1#8]
            | .paused => s.answered x r rest [0#8, 2#8]
            | .running =>
              if (G.beat.map Beat.inFlight).getD false then
                (s.setGang g (some { G with run := .pausing })).answered x r rest [0#8, 1#8]
              else
                (s.setGang g (some
                  { G with
                    run := .paused
                    queue := match G.queue with
                      | [] => []
                      | J :: later =>
                        { J with state := if J.state = .running then .paused else J.state } :: later })).answered x r
                  rest [0#8, 2#8])) ∧
    ∀ (s : State) (x : LinkId) (r : Request) (rest : List Request) (n : Byte), s.Takes x r rest → r.code = 0x34#8 →
      r.payload = [n] →
      exec (.resume x) s = .next
        (match s.gangAt n.toNat with
        | none => s.answered x r rest [7#8]
        | some (g, G) =>
          if G.owner ≠ x then s.answered x r rest [6#8]
          else
            match G.run, G.queue with
            | .running, _ => s.answered x r rest [0#8, 0#8]
            | .pausing, _ => (s.setGang g (some { G with run := .running })).answered x r rest [0#8, 0#8]
            | .paused, [] => (s.setGang g (some { G with run := .running })).answered x r rest [0#8, 0#8]
            | .paused, J :: later =>
              if J.state = .paused then
                (((s.popped x rest).setGang g (some
                  { G with run := .running, queue := { J with state := .running } :: later })).tryBegin g).pushReply x
                  ⟨r.tag, 0x34#8, [0#8, 0#8]⟩
              else (s.setGang g (some { G with run := .running })).answered x r rest [0#8, 0#8])

/-- JOB-STATUS reports a live job to either link, with the progress of the active job and the values 0, 1 and 0 of a job behind
the head, or is refused NO_SUCH_JOB; it changes no state. -/
def Obligations.JobStatusReportsTheJob : Prop :=
  ∀ (s : State) (x : LinkId) (r : Request) (rest : List Request) (hi lo : Byte), s.IdsDistinct → s.Takes x r rest →
    r.code = 0x35#8 → r.payload = [hi, lo] →
    let id := hi.toNat * 256 + lo.toNat
    (id = 0 ∨ id ∉ s.liveIds → exec (.jobStatus x) s = .next (s.answered x r rest [9#8])) ∧
      ∀ (g : GangId) (G : Gang) (before : List Job) (J : Job) (behind : List Job) (B : Beat),
        s.gang g = some G → G.queue = before ++ J :: behind → J.id = id → G.beat = some B →
        exec (.jobStatus x) s = .next (s.answered x r rest
          ([0#8, hi, lo] ++ u8 g.val ++ [(match J.dir with | .send => 0#8 | .capture => 1#8)] ++ u8 J.slot.val ++ [J.gen] ++
            u32 J.offset ++ u16 J.beats ++ u8 J.repeats ++ [J.afterOk, J.quiet].flatMap flagByte ++
            [(match J.state with | .queued => 0#8 | .waiting => 1#8 | .running => 2#8 | .paused => 3#8)] ++
            u8 (before.length + 1) ++
            (if before = [] then u32 B.done ++ u8 B.rep ++ u16 B.index
            else [0#8, 0#8, 0#8, 0#8, 1#8, 0#8, 0#8])))

/-! ## The links -/

/-- Bytes reach the parser as the table of R144 says; on Link B the gap timer is started with 10 ms at each byte stored, and a
byte exchange of Link A has SSEL asserted and sends one byte on SDO: the next unsent byte of the outbound frame, else the
first byte of a frame that begins at that exchange, else the fill byte (which rows spell an exchange is log 7, and what SDO
shows while RESETN is held or without power is log 25). An oversize length discards the frame with the link fault
OVERSIZE. -/
def Obligations.ParserActsOnEachByte : Prop :=
  (∀ (s : State) (x : LinkId) (b : Byte), s.receiving x = true →
      let l := s.link x
      let seen := s.exchange x
      let stored := fun p => seen.setParser x p (l.buffer ++ [b])
      (l.parser = .hunting → b = 0xA7#8 → exec (.byteReceived x b) s = .next (seen.setParser x .header [b])) ∧
        (l.parser = .hunting → b ≠ 0xA7#8 → exec (.byteReceived x b) s = .next seen) ∧
        (l.parser = .header → l.buffer.length < 4 → exec (.byteReceived x b) s = .next (stored .header)) ∧
        (l.parser = .header → l.buffer.length = 4 → b.toNat ≤ 232 →
          exec (.byteReceived x b) s = .next (stored (if b = 0#8 then .crc else .payload))) ∧
        (l.parser = .header → l.buffer.length = 4 → 232 < b.toNat →
          exec (.lengthOversize x b) s = .next ((seen.setParser x .hunting []).notify x (.linkFault .oversize))) ∧
        (l.parser = .payload → 5 ≤ l.buffer.length →
          exec (.byteReceived x b) s = .next
            (stored (if l.buffer.length + 1 = 5 + (l.buffer.getD 4 0#8).toNat then .crc else .payload))) ∧
        (l.parser = .crc → l.buffer.length = 5 + (l.buffer.getD 4 0#8).toNat →
          exec (.byteReceived x b) s = .next (stored .crc))) ∧
    (∀ (s : State) (x : LinkId) (b : Byte), s.receiving x = false → (s.link x).parser = .hunting →
      exec (.byteReceived x b) s = .next (s.exchange x)) ∧
    ∀ (s : State) (p : ParserState) (buffer : List Byte),
      s.setParser .a p buffer = { s with linkA := { s.linkA with parser := p, buffer := buffer } } ∧
        s.setParser .b p buffer =
          { s with
            linkB := { s.linkB with parser := p, buffer := buffer }
            gap := if p = .hunting then .stopped else .running 10 } ∧
        s.exchange .b = s ∧
        s.exchange .a =
          (match s.mode with
          | .off => { s with ssel := true, sdo := none }
          | .held => { s with ssel := true, sdo := some 0x00#8 }
          | .starting _ => { s with ssel := true, sdo := some 0x00#8 }
          | .ready =>
            match s.linkA.begun.outbound with
            | none => { s with ssel := true, sdo := some 0x00#8, linkA := s.linkA.begun }
            | some o =>
              { s with
                ssel := true
                sdo := some (o.frame.getD o.sent 0x00#8)
                linkA :=
                  { s.linkA.begun with
                    outbound := if o.sent + 1 < o.frame.length then some ⟨o.frame, o.sent + 1⟩ else none } })

/-- A complete frame is checked for its check word, then for its kind; a good request is refused DUPLICATE_TAG, then
INTAKE_FULL, by a reply at once or, with the reply queue full, by the link fault OVERFLOW, and else joins the intake. The
check word of "123456789" is 0x29B1. -/
def Obligations.FramesAreCheckedAndOffered : Prop :=
  (∀ (s : State) (x : LinkId) (b : Byte),
      let l := s.link x
      let frame := l.buffer ++ [b]
      let length := (l.buffer.getD 4 0#8).toNat
      s.receiving x = true → l.parser = .crc → l.buffer.length = 6 + length →
      let ended := (s.exchange x).setParser x .hunting []
      let tag := frame.getD 2 0#8
      let code := frame.getD 3 0#8
      let atOnce := fun status : Byte =>
        if (ended.link x).replies.length < 8 then ended.pushReply x ⟨tag, code, [status]⟩ else ended.notify x (.linkFault .overflow)
      exec (.frameReceived x b) s = .next
        (if u16 (crc16 ((frame.drop 1).take (4 + length))).toNat ≠ frame.drop (5 + length) then
          ended.notify x (.linkFault .check)
        else if frame.getD 1 0#8 ≠ 1#8 then ended.notify x (.linkFault .kind)
        else if (∃ q ∈ l.intake, q.tag = tag) ∨ ∃ p ∈ l.sync.toList, p.tag = tag then atOnce 4#8
        else if 4 ≤ l.intake.length then atOnce 5#8
        else
          ended.setLink x
            { ended.link x with intake := l.intake ++ [⟨tag, code, (frame.drop 5).take length⟩] })) ∧
    crc16 [0x31#8, 0x32#8, 0x33#8, 0x34#8, 0x35#8, 0x36#8, 0x37#8, 0x38#8, 0x39#8] = 0x29B1#16

/-- A frame in progress is ended with the link fault TRUNCATED when Link B's gap timer runs out and when SSEL of Link A is
deasserted; while the parser is HUNTING neither raises a fault. With SSEL deasserted SDO is not driven. (With no gap timer
running, or on a part that is not ready, GAP_TIMER_EXPIRY has no effect: log 3.) -/
def Obligations.FramesEndedEarlyAreTruncated : Prop :=
  (∀ s : State, s.mode = .ready → s.gap.isRunning = true →
      exec .gapTimerExpiry s = .next
        (if s.linkB.parser = .hunting then { s with gap := .stopped }
        else (s.setParser .b .hunting []).notify .b (.linkFault .truncated))) ∧
    (∀ s : State, s.mode ≠ .ready ∨ s.gap = .stopped → exec .gapTimerExpiry s = .next s) ∧
    ∀ s : State,
      exec .sselDeasserted s = .next
        (if s.mode = .ready ∧ s.linkA.parser ≠ .hunting then
          (({ s with ssel := false, sdo := none } : State).setParser .a .hunting []).notify .a (.linkFault .truncated)
        else { s with ssel := false, sdo := none })

/-- With no outbound frame the transmitter begins the reply at the head of the reply queue, else the oldest notice; a
reservation at the head is not sent, and the replies behind it wait. TRANSMIT_BEGIN has no effect while an outbound frame
stands (log 3), and TRANSMIT_END ends the outbound frame at whatever count of sent bytes is held (log 7). ATTN is asserted
exactly while the part is ready and an outbound byte is unsent, a reply is queued or a notice waits. -/
def Obligations.TransmitterSendsRepliesFirst : Prop :=
  (∀ l : Link, l.outbound = none →
      l.begun =
        (match l.replies, l.notices with
        | .reply q :: rest, _ =>
          { l with replies := rest, outbound := some ⟨frameBytes 2#8 q.tag q.code q.payload, 0⟩ }
        | _, n :: rest =>
          { l with
            notices := rest
            outbound := some
              ⟨frameBytes 3#8 n.seq
                (match n.body with
                | .started _ _ => 0x01#8
                | .jobDone _ _ _ => 0x02#8
                | .jobFault _ _ _ _ _ => 0x03#8
                | .jobDropped _ _ _ => 0x04#8
                | .packDone _ _ _ _ _ => 0x05#8
                | .flagEdge _ _ _ _ => 0x06#8
                | .linkFault _ => 0x07#8) n.payload, 0⟩ }
        | _, [] => l)) ∧
    (∀ l : Link, l.outbound ≠ none → l.begun = l) ∧
    (∀ (s : State) (x : LinkId), s.mode = .ready →
      exec (.transmitBegin x) s = .next (s.setLink x (s.link x).begun)) ∧
    (∀ (s : State) (x : LinkId), s.mode ≠ .ready ∨ (s.link x).outbound ≠ none →
      exec (.transmitBegin x) s = .next s) ∧
    (∀ (s : State) (x : LinkId), s.mode = .ready →
      exec (.transmitEnd x) s = .next (s.setLink x { s.link x with outbound := none })) ∧
    ∀ s : State, s.attn = true ↔
      s.mode = .ready ∧
        ((∃ o ∈ s.linkA.outbound, o.sent < o.frame.length) ∨ (∃ q : Reply, .reply q ∈ s.linkA.replies) ∨
          s.linkA.notices ≠ [])

/-- A notice takes the link's sequence and dropped count and joins the tail of the queue; with 16 notices waiting it is
discarded and counted up to 255, and the sequence stays. A FLAG_EDGE that finds one of its gang waiting updates it in
place. Each kind of notice carries its fields behind the dropped count. -/
def Obligations.NoticesQueueWithTheirFields : Prop :=
  (∀ (s : State) (x : LinkId) (body : NoticeBody),
      s.notify x body = s.setLink x
        (if (s.link x).notices.length < 16 then
          { s.link x with
            notices := (s.link x).notices ++ [⟨(s.link x).seq, (s.link x).dropped, body⟩]
            seq := (s.link x).seq + 1#8
            dropped := 0 }
        else { s.link x with dropped := min 255 ((s.link x).dropped + 1) })) ∧
    (∀ (s : State) (x : LinkId) (g : GangId) (level : Bool),
      (∀ n ∈ (s.link x).notices, n.isEdgeOf g = false) →
        s.notifyEdge x g level = s.notify x (.flagEdge g level 1 true)) ∧
    (∀ (s : State) (x : LinkId) (g : GangId) (level old : Bool) (before after : List Notice) (seq : Byte)
        (dropped edges : Nat),
      (s.link x).notices = before ++ ⟨seq, dropped, .flagEdge g old edges true⟩ :: after →
      (∀ n ∈ before ++ after, n.isEdgeOf g = false) →
      s.notifyEdge x g level = s.setLink x
        { s.link x with
          notices := before ++ ⟨seq, dropped, .flagEdge g level (min 255 (edges + 1)) true⟩ :: after }) ∧
    ∀ (seq : Byte) (d job cause moves barriers extents largest edges done : Nat) (g : GangId) (stopped level live : Bool)
        (scope : Scope) (why : Cause) (reason : FaultReason) (phase : Phase) (fault : LinkFaultReason),
      (⟨seq, d, .started scope why⟩ : Notice).payload =
          u8 d ++ [match scope with | .all => 0#8 | .engine => 1#8 | .link => 2#8] ++
            [match why with
              | .power => 0#8 | .pin => 1#8 | .requestA => 2#8 | .requestB => 3#8 | .detach => 4#8 | .break_ => 5#8] ∧
        (⟨seq, d, .jobDone job g done⟩ : Notice).payload = u8 d ++ u16 job ++ u8 g.val ++ u32 done ∧
        (⟨seq, d, .jobFault job g reason phase done⟩ : Notice).payload =
          u8 d ++ u16 job ++ u8 g.val ++
            [match reason with | .flagTimeout => 0#8 | .heldOff => 1#8 | .overrun => 2#8] ++
            [match phase with
              | .waitReady => 0#8 | .waitTake => 1#8 | .waitMatch => 2#8 | .waitToggle => 3#8 | .waitStrobe => 4#8
              | .waitGate => 5#8 | .settle => 6#8 | .pulse => 7#8 | .period => 8#8] ++ u32 done ∧
        (⟨seq, d, .jobDropped job g cause⟩ : Notice).payload = u8 d ++ u16 job ++ u8 g.val ++ u16 cause ∧
        (⟨seq, d, .packDone stopped moves barriers extents largest⟩ : Notice).payload =
          u8 d ++ [if stopped then 1#8 else 0#8] ++ u8 moves ++ u8 barriers ++ u8 extents ++ u16 largest ∧
        (⟨seq, d, .flagEdge g level edges live⟩ : Notice).payload =
          u8 d ++ u8 g.val ++ [if level then 1#8 else 0#8] ++ u8 edges ∧
        (⟨seq, d, .linkFault fault⟩ : Notice).payload =
          u8 d ++
            [match fault with
              | .check => 0#8 | .truncated => 1#8 | .oversize => 2#8 | .kind => 3#8 | .overflow => 4#8] ∧
        [NoticeBody.started scope why, .jobDone job g done, .jobFault job g reason phase done, .jobDropped job g cause,
            .packDone stopped moves barriers extents largest, .flagEdge g level edges live, .linkFault fault].map
            NoticeBody.kind =
          [0x01#8, 0x02#8, 0x03#8, 0x04#8, 0x05#8, 0x06#8, 0x07#8]

/-! ## Power, reset and start-up -/

/-- Power and RESETN begin, hold and abandon start-ups, and every state then takes its full-restart value; the end of a
start-up zeroes the store, makes the part ready and queues STARTED with scope ALL and the recorded cause on both links.
The cause is POWER until a start-up has ended since power was applied. (What a row does at a moment at which its event
cannot occur is logs 3 and 22. That the levels of RSEL are an operand of POWER_ON, RESETN_ASSERTED and RESETN_RELEASED is
log 19. That POWER_OFF clears the store bytes and keeps the recorded rate until the next start-up samples RSEL is log 11,
and the SDO of an unpowered part is log 25.) -/
def Obligations.StartUpsBeginAndEnd : Prop :=
  (∀ (s : State) (rsel : Fin 4),
      s.fullRestart rsel =
        { s with
          dir := Vector.replicate 48 ⟨0#8, none⟩, free := [⟨0, 2048⟩]
          pack := { state := .idle, link := none, cursor := 0, move := none, moves := 0, barriers := 0 }
          lanes := Vector.replicate 10 { gang := none, latched := 0x00#8, enabled := false }
          gangs := Vector.replicate 8 none, nextId := 1, linkA := .init, linkB := .init, gap := .stopped
          rate := (match rsel with | 0 => .baud115200 | 1 => .baud230400 | 2 => .baud460800 | 3 => .baud921600)
          silent := false }) ∧
    (∀ (s : State) (rsel : Fin 4),
      exec (.powerOn rsel) s = .next
        (if s.mode = .off then
          { s.fullRestart rsel with mode := if s.resetnHigh then .starting .power else .held, started := false }
        else s)) ∧
    (∀ s : State,
      exec .powerOff s = .next
        (if s.mode = .off then s
        else { s.fullRestart 0 with mode := .off, started := false, store := [], rate := s.rate, sdo := none })) ∧
    (∀ (s : State) (rsel : Fin 4),
      exec (.resetnAsserted rsel) s = .next
        (if s.resetnHigh = true ∧ s.mode ≠ .off then
          { s.fullRestart rsel with mode := .held, resetnHigh := false }
        else { s with resetnHigh := false })) ∧
    (∀ (s : State) (rsel : Fin 4),
      exec (.resetnReleased rsel) s = .next
        (if s.mode = .held then
          { s.fullRestart rsel with mode := .starting (if s.started then .pin else .power), resetnHigh := true }
        else { s with resetnHigh := true })) ∧
    (∀ (s : State) (cause : Cause), s.mode = .starting cause →
      exec .startupEnd s = .next
        ((({ s with mode := .ready, started := true, store := [] } : State).notify .a (.started .all cause)).notify .b
          (.started .all cause))) ∧
    ∀ s : State, (∀ cause, s.mode ≠ .starting cause) → exec .startupEnd s = .next s

/-! ## The beat -/

/-- A drive latches the beat's block bytes on the gang's lanes in lane order and enables the drivers; a sample writes the sensed
bytes of the lanes, in lane order, into the beat's block bytes and counts the beat. Every other lane, store byte and field
stays. -/
def Obligations.DriveAndSampleMoveTheBeat : Prop :=
  ∀ (s : State) (g : GangId) (G : Gang) (J : Job) (later : List Job) (B : Beat) (b : Block), s.Active g G J later B →
    s.block J.slot = some b →
    let start := 64 * b.base + (J.offset + B.index * G.width)
    let place := fun i : LaneId =>
      if G.cfg.descending then G.first.val + G.width - 1 - i.val else i.val - G.first.val
    (∃ lanes : Vector Lane 10,
        (∀ i : LaneId, lanes[i] =
          if G.first.val ≤ i.val ∧ i.val < G.first.val + G.width then
            { gang := s.lanes[i].gang, latched := s.store.get (start + place i), enabled := true }
          else s.lanes[i]) ∧
        s.drive g =
          { s with lanes := lanes, gangs := s.gangs.set g (some { G with beat := some { B with drove := true } }) }) ∧
      (G.first.val + G.width ≤ 10 →
        ∃ store : Mem,
          (∀ i : LaneId, G.first.val ≤ i.val → i.val < G.first.val + G.width → start + place i < 131072 →
            store.get (start + place i) = s.sensed G i) ∧
          (∀ a, a < start ∨ start + G.width ≤ a → store.get a = s.store.get a) ∧
          s.sample g =
            { s with
              store := store
              gangs := s.gangs.set g (some { G with beat := some { B with sampled := true, done := B.done + 1 } }) })

/-- A beat begins when the job and the gang are RUNNING, no beat is in flight and a SEND job's gang is not held off: it is in
flight, not sampled, its timer starts unless the timeout is 0, and it enters the first step of its mode's sequence. At a
period start the period timer starts, SEND drives and settles, and CAPTURE asserts CTL. -/
def Obligations.BeatsBeginAtTheirFirstStep : Prop :=
  ∀ (s : State) (g : GangId) (G : Gang) (J : Job) (later : List Job) (B : Beat), s.Active g G J later B →
    let reaching := fun p : Phase => s.setGang g (some { G with beat := some { B with phase := some p } })
    let driven := (s.drive g).setPhase g .settle
    let asking := s.setGang g (some { G with ctl := true, beat := some { B with phase := some .waitTake } })
    let timed : Beat := { B with periodTimer := .running G.time.period }
    s.tryBegin g =
        (if J.state = .running ∧ G.run = .running ∧ B.inFlight = false ∧ (J.dir = .capture ∨ s.heldOff G = false) then
          (s.setGang g (some
            { G with
              beat := some
                { B with
                  inFlight := true, sampled := false, abandoned := false, toggled := false
                  beatTimer := if G.time.timeout = 0 then .stopped else .running G.time.timeout } })).enterFirst g
        else s) ∧
      s.periodStart g =
        (match J.dir with
        | .send => ((s.setGang g (some { G with beat := some timed })).drive g).setPhase g .settle
        | .capture =>
          s.setGang g (some { G with ctl := true, beat := some { timed with phase := some .pulse } })) ∧
      (G.cfg.mode = .lockstep → J.dir = .send → s.enterFirst g = if s.flg G then reaching .waitReady else driven) ∧
      (G.cfg.mode = .lockstep → J.dir = .capture → s.enterFirst g = if s.flg G then reaching .waitReady else asking) ∧
      (G.cfg.mode = .answered → J.dir = .send →
        s.enterFirst g = if s.flg G = G.ctl then driven else reaching .waitMatch) ∧
      (G.cfg.mode = .answered → J.dir = .capture →
        s.enterFirst g = if s.flg G = G.ctl then reaching .waitToggle else reaching .settle) ∧
      (G.cfg.mode = .strobed → J.dir = .send → s.enterFirst g = if s.flg G then reaching .waitReady else driven) ∧
      (G.cfg.mode = .strobed → J.dir = .capture → s.enterFirst g = reaching .waitStrobe) ∧
      (G.cfg.mode = .clocked → J.dir = .send →
        s.enterFirst g = if G.cfg.flagGate = true ∧ s.flg G = true then reaching .waitGate else s.periodStart g) ∧
      (G.cfg.mode = .clocked → J.dir = .capture → s.enterFirst g = s.periodStart g)

/-- At the completion of a beat its timers stop, no beat is in flight, a SEND beat is counted, and the index advances, or
returns to 0 with the next repeat. After the last beat CTL is deasserted and the job departs DONE with JOB_DONE unless it is
quiet; else the next beat begins if it may, and a PAUSING gang becomes PAUSED with its job. -/
def Obligations.CompletionAdvancesTheBeat : Prop :=
  ∀ (s : State) (g : GangId) (G : Gang) (J : Job) (later : List Job) (B : Beat), s.Active g G J later B →
    let rep := if B.index + 1 < J.beats then B.rep else B.rep + 1
    let done := match J.dir with
      | .send => B.done + 1
      | .capture => B.done
    let next : Beat :=
      { B with
        rep := rep, index := if B.index + 1 < J.beats then B.index + 1 else 0, done := done, inFlight := false
        phase := none, beatTimer := .stopped, periodTimer := .stopped, toggled := false }
    s.completeBeat g =
      if J.repeats < rep then
        (s.setGang g (some { G with ctl := false, beat := some next })).departHead g .done
          (if J.quiet then none else some (.jobDone J.id g done))
      else
        match G.run with
        | .running => (s.setGang g (some { G with beat := some next })).tryBegin g
        | .pausing =>
          s.setGang g (some
            { G with run := .paused, queue := { J with state := .paused } :: later, beat := some next })
        | .paused => s.setGang g (some { G with beat := some next })

/-- A change of a FLG pin sets the pin. It acts only on the first lane of a gang of a part that is ready: in MANUAL it is
watched, and in the other modes it is tested against the phase of a beat in flight that is not abandoned. (That a change
to the level already there has no effect is log 3, that the board's data levels are an operand is log 8, that each reading
takes a fresh count is log 9, and that a part which is not ready records the level alone is log 22.) -/
def Obligations.FlgChangeIsWatchedOrTested : Prop :=
  ∀ (s : State) (i : LaneId) (high : Bool) (board : Board),
    let seen := (s.setFlgPin i high).senseBoard board
    (s.pins[i].flg = high → exec (.flgChange i high board) s = .next s) ∧
      (s.pins[i].flg ≠ high →
        ((s.mode ≠ .ready ∨ ∀ (g : GangId) (G : Gang), s.lanes[i].gang = some g → s.gang g = some G → G.first ≠ i) →
            exec (.flgChange i high board) s = .next seen) ∧
          ∀ (g : GangId) (G : Gang), s.mode = .ready → s.lanes[i].gang = some g → s.gang g = some G → G.first = i →
            let f := high ^^ G.cfg.flgNeg
            (G.cfg.mode = .manual →
                exec (.flgChange i high board) s = .next
                  (if G.cfg.watch = true ∧ f ≠ G.watched then
                    (seen.setGang g (some { G with watched := f })).notifyEdge G.owner g f
                  else seen)) ∧
              (G.cfg.mode ≠ .manual →
                (∀ (J : Job) (later : List Job) (B : Beat), s.Active g G J later B →
                  B.inFlight = false ∨ B.abandoned = true) →
                exec (.flgChange i high board) s = .next seen) ∧
              ∀ (J : Job) (later : List Job) (B : Beat), G.cfg.mode ≠ .manual → s.Active g G J later B →
                B.inFlight = true → B.abandoned = false →
                let reaching := fun (ctl : Bool) (p : Phase) =>
                  seen.setGang g (some { G with ctl := ctl, beat := some { B with phase := some p } })
                exec (.flgChange i high board) s = .next
                  (match B.phase, J.dir with
                  | some .waitReady, .send => if f then seen else (seen.drive g).setPhase g .settle
                  | some .waitReady, .capture => if f then seen else reaching true .waitTake
                  | some .waitTake, .send =>
                    if f then (seen.setGang g (some { G with ctl := false })).completeBeat g else seen
                  | some .waitTake, .capture => if f then reaching G.ctl .settle else seen
                  | some .waitMatch, _ =>
                    if f ≠ G.ctl then seen
                    else if B.toggled then seen.completeBeat g else (seen.drive g).setPhase g .settle
                  | some .waitToggle, _ => if f ≠ G.ctl then reaching G.ctl .settle else seen
                  | some .waitStrobe, _ => if f then ((seen.sample g).setCtl g true).setPhase g .pulse else seen
                  | some .waitGate, _ => if f then seen else seen.periodStart g
                  | some .pulse, .capture =>
                    if f = true ∧ G.cfg.mode = .strobed then
                      (seen.setGang g (some { G with ctl := false })).departHead g .faulted
                        (some (.jobFault J.id g .overrun .pulse B.done))
                    else seen
                  | _, _ => seen)) ∧
      (∀ j : LaneId, seen.pins[j] = ⟨board[j], if j = i then high else s.pins[j].flg, s.pins[j].hold⟩) ∧
      seen = { s with pins := seen.pins, fresh := s.fresh + 1 }

/-- A change of a HOLD pin sets the pin. When it makes its gang held off, the gang's drivers float and a SEND beat in flight is
abandoned with CTL as at its beginning; when it ends the hold, an abandoned beat restarts at its first step, a SEND beat
that was due begins, and a gang without a job that drives continuously is enabled. (That a change to the level already
there has no effect is log 3, and that a part which is not ready records the level alone is log 22.) -/
def Obligations.HoldChangeAbandonsAndRestarts : Prop :=
  ∀ (s : State) (i : LaneId) (high : Bool),
    let seen : State := { s with pins := s.pins.set i ⟨s.pins[i].board, s.pins[i].flg, high⟩ }
    (s.pins[i].hold = high → exec (.holdChange i high) s = .next s) ∧
      (s.pins[i].hold ≠ high →
        ((s.mode ≠ .ready ∨ s.lanes[i].gang = none) → exec (.holdChange i high) s = .next seen) ∧
          ∀ (g : GangId) (G : Gang), s.mode = .ready → s.lanes[i].gang = some g → s.gang g = some G →
            (s.heldOff G = seen.heldOff G → exec (.holdChange i high) s = .next seen) ∧
              (s.heldOff G = false → seen.heldOff G = true →
                (∀ (J : Job) (later : List Job) (B : Beat), s.Active g G J later B →
                    J.dir = .send → B.inFlight = true → B.abandoned = false →
                    exec (.holdChange i high) s = .next
                      ((seen.setDrivers G false).setGang g (some
                        { G with
                          ctl := if G.cfg.mode = .answered then G.ctl ^^ B.toggled else false
                          beat := some { B with abandoned := true, toggled := false, periodTimer := .stopped } }))) ∧
                  ((∀ (J : Job) (later : List Job) (B : Beat), s.Active g G J later B →
                      J.dir = .capture ∨ B.inFlight = false ∨ B.abandoned = true) →
                    exec (.holdChange i high) s = .next (seen.setDrivers G false))) ∧
              (s.heldOff G = true → seen.heldOff G = false →
                (G.queue = [] →
                    exec (.holdChange i high) s = .next
                      (if (G.cfg.mode = .manual ∧ G.cfg.manualOut = true) ∨ G.restDrive = true then
                        seen.setDrivers G true
                      else seen)) ∧
                  ∀ (J : Job) (later : List Job) (B : Beat), s.Active g G J later B →
                    (J.dir = .capture → exec (.holdChange i high) s = .next seen) ∧
                      (J.dir = .send → B.inFlight = true → B.abandoned = true →
                        exec (.holdChange i high) s = .next
                          ((seen.setGang g (some
                            { G with beat := some { B with abandoned := false, toggled := false } })).enterFirst g)) ∧
                      (J.dir = .send → B.inFlight = false → exec (.holdChange i high) s = .next (seen.tryBegin g)))) ∧
      ∀ (G : Gang) (on : Bool) (j : LaneId), (s.setDrivers G on).lanes[j] =
        if G.has j.val then { s.lanes[j] with enabled := on } else s.lanes[j]

/-- The end of the settle time takes the steps of the mode that follow SETTLE: CTL is asserted or toggled and FLG tested in SEND,
the lines are sampled in CAPTURE. A CLOCKED CAPTURE beat samples at its settle time also during its pulse. With no settle
time running the row has no effect (log 3, log 5). That the board's data levels are an operand of SETTLE_END is log 8, and
that each reading of them takes a fresh count is log 9. -/
def Obligations.SettleEndTakesTheNextStep : Prop :=
  (∀ (s : State) (g : GangId) (board : Board) (G : Gang) (J : Job) (later : List Job) (B : Beat), s.mode = .ready →
      s.Active g G J later B → B.inFlight = true → B.abandoned = false →
      let seen := s.senseBoard board
      let reaching := fun (ctl toggled : Bool) (p : Phase) =>
        seen.setGang g (some { G with ctl := ctl, beat := some { B with toggled := toggled, phase := some p } })
      (B.phase = some .settle →
        (G.cfg.mode = .lockstep → J.dir = .send →
            exec (.settleEnd g board) s = .next
              (if s.flg G then (seen.setGang g (some { G with ctl := false })).completeBeat g
              else reaching true B.toggled .waitTake)) ∧
          (G.cfg.mode = .lockstep → J.dir = .capture →
            exec (.settleEnd g board) s = .next (((seen.sample g).setCtl g false).completeBeat g)) ∧
          (G.cfg.mode = .answered → J.dir = .send →
            exec (.settleEnd g board) s = .next
              (if s.flg G = !G.ctl then
                (seen.setGang g (some { G with ctl := !G.ctl, beat := some { B with toggled := true } })).completeBeat g
              else reaching (!G.ctl) true .waitMatch)) ∧
          (G.cfg.mode = .answered → J.dir = .capture →
            exec (.settleEnd g board) s = .next (((seen.sample g).setCtl g !G.ctl).completeBeat g)) ∧
          (G.cfg.mode = .strobed ∨ G.cfg.mode = .clocked → J.dir = .send →
            exec (.settleEnd g board) s = .next (reaching true B.toggled .pulse)) ∧
          (G.cfg.mode = .clocked → J.dir = .capture → B.sampled = false →
            exec (.settleEnd g board) s = .next ((seen.sample g).setPhase g .period))) ∧
        (B.phase = some .pulse → G.cfg.mode = .clocked → J.dir = .capture → B.sampled = false →
          G.time.settle ≤ G.time.pulse → exec (.settleEnd g board) s = .next (seen.sample g))) ∧
    ∀ (s : State) (g : GangId) (board : Board),
      (s.mode ≠ .ready ∨ ∀ (G : Gang) (J : Job) (later : List Job) (B : Beat), s.Active g G J later B →
        B.inFlight = false ∨ B.abandoned = true ∨ (B.phase ≠ some .settle ∧ B.phase ≠ some .pulse) ∨
          (B.phase = some .pulse ∧
            (G.cfg.mode ≠ .clocked ∨ J.dir = .send ∨ B.sampled = true ∨ G.time.pulse < G.time.settle))) →
      exec (.settleEnd g board) s = .next s

/-- The end of the pulse time deasserts CTL: a STROBED beat completes, and so does a CLOCKED SEND beat whose settle and pulse are
not shorter than its period; else a CLOCKED beat goes on in PERIOD, or in SETTLE until its CAPTURE sample. The end of the
period completes a beat in PERIOD. With no such time running the rows have no effect (log 3, log 5). -/
def Obligations.PulseAndPeriodEnd : Prop :=
  (∀ (s : State) (g : GangId) (G : Gang) (J : Job) (later : List Job) (B : Beat), s.mode = .ready →
      s.Active g G J later B → B.inFlight = true → B.abandoned = false →
      let lowered := s.setGang g (some { G with ctl := false })
      let reaching := fun p : Phase => s.setGang g (some { G with ctl := false, beat := some { B with phase := some p } })
      (B.phase = some .pulse →
        (G.cfg.mode = .strobed → exec (.pulseEnd g) s = .next (lowered.completeBeat g)) ∧
          (G.cfg.mode = .clocked → J.dir = .send →
            exec (.pulseEnd g) s = .next
              (if G.time.period ≤ G.time.settle + G.time.pulse then lowered.completeBeat g else reaching .period)) ∧
          (G.cfg.mode = .clocked → J.dir = .capture → B.sampled = true →
            exec (.pulseEnd g) s = .next (reaching .period)) ∧
          (G.cfg.mode = .clocked → J.dir = .capture → B.sampled = false → G.time.pulse ≤ G.time.settle →
            exec (.pulseEnd g) s = .next (reaching .settle)) ∧
          (G.cfg.mode = .clocked → J.dir = .capture → B.sampled = false → G.time.settle < G.time.pulse →
            exec (.pulseEnd g) s = .next s)) ∧
        (B.phase = some .period → B.periodTimer.isRunning = true →
          exec (.periodEnd g) s = .next (s.completeBeat g)) ∧
        (B.phase = some .pulse → B.periodTimer.isRunning = true → J.dir = .send →
          G.time.period ≤ G.time.settle + G.time.pulse →
          exec (.periodEnd g) s = .next
            (s.setGang g (some { G with beat := some { B with periodTimer := .stopped } })))) ∧
    (∀ (s : State) (g : GangId),
      (s.mode ≠ .ready ∨ ∀ (G : Gang) (J : Job) (later : List Job) (B : Beat), s.Active g G J later B →
        B.inFlight = false ∨ B.abandoned = true ∨ B.phase ≠ some .pulse) →
      exec (.pulseEnd g) s = .next s) ∧
    ∀ (s : State) (g : GangId),
      (s.mode ≠ .ready ∨ ∀ (G : Gang) (J : Job) (later : List Job) (B : Beat), s.Active g G J later B →
        B.inFlight = false ∨ B.abandoned = true ∨ B.periodTimer = .stopped ∨
          (B.phase ≠ some .period ∧ B.phase ≠ some .pulse)) →
      exec (.periodEnd g) s = .next s

/-- At the run-out of the beat timer the job faults, HELD_OFF while its gang is held off and else FLAG_TIMEOUT, with CTL
deasserted and the phase and beats done in its notice. The departure of an active job removes it and the after_ok jobs
directly behind it, if it ended other than DONE; refs, last outcome, notices and run state follow. With no job left the
rest of the gang and a SYNC follow; with a job left the departure ends in the activation of the new head. (With no beat in
flight or no timer running the row has no effect: log 3.) -/
def Obligations.ExpiryFaultsAndDepartureFollows : Prop :=
  (∀ (s : State) (g : GangId) (G : Gang) (J : Job) (later : List Job) (B : Beat) (phase : Phase), s.mode = .ready →
      s.Active g G J later B → B.inFlight = true → B.beatTimer.isRunning = true → B.phase = some phase →
      exec (.beatTimerExpiry g) s = .next
        ((s.setGang g (some { G with ctl := false })).departHead g .faulted
          (some (.jobFault J.id g (if s.heldOff G then .heldOff else .flagTimeout) phase B.done)))) ∧
    (∀ (s : State) (g : GangId),
      (s.mode ≠ .ready ∨ ∀ (G : Gang) (J : Job) (later : List Job) (B : Beat), s.Active g G J later B →
        B.inFlight = false ∨ B.beatTimer = .stopped) →
      exec (.beatTimerExpiry g) s = .next s) ∧
    ∀ (s : State) (g : GangId) (G : Gang) (J : Job) (later : List Job) (B : Beat) (o : LastOutcome)
        (notice : Option NoticeBody), s.Active g G J later B →
      let drops := if o = .done then [] else later.takeWhile Job.afterOk
      let keep := if o = .done then later else later.dropWhile Job.afterOk
      let t := s.departHead g o notice
      ∃ G' : Gang, t.gang g = some G' ∧
        G'.queue.map Job.id = keep.map Job.id ∧ G'.last = (if drops = [] then o else .dropped) ∧
        G'.run = (if G.run = .pausing then .paused else G.run) ∧
        (G'.owner, G'.first, G'.width, G'.cfg, G'.time, G'.watched) =
          (G.owner, G.first, G.width, G.cfg, G.time, G.watched) ∧
        (∀ i : SlotId, (t.block i).map Block.refs =
          (s.block i).map fun b => b.refs - ((J :: drops).filter fun K => K.slot == i).length) ∧
        (keep = [] →
          G'.beat = none ∧ G'.restDrive = (G.cfg.restHold && J.dir == .send && B.drove) ∧
            (∀ i : LaneId, G.has i.val = true → t.lanes[i].enabled = (G'.restDrive && !s.heldOff G)) ∧
            (∀ b ∈ t.block J.slot, b.mentions (· == g) = false) ∧
            ∀ (x : LinkId), ∀ p ∈ (s.link x).sync, p.gang = g → (t.link x).sync = none ∧
              (t.link x).replies =
                replaceReservation ⟨p.tag, 0x05#8, [0#8] ++ u8 g.val ++ u8 G'.last.num⟩ (s.link x).replies) ∧
        (keep ≠ [] →
          ∃ u : State, t = u.activate g ∧
            u.gang g = some
              { G with
                queue := keep, beat := none, last := if drops = [] then o else .dropped
                run := if G.run = .pausing then .paused else G.run } ∧
            (∀ b ∈ u.block J.slot, b.mentions (· == g) = false) ∧ ∀ x : LinkId, u.link x = t.link x) ∧
        ((s.link G.owner).notices.length + notice.toList.length + drops.length ≤ 16 →
          (t.link G.owner).notices.map Notice.body =
            (s.link G.owner).notices.map Notice.body ++ notice.toList ++
              drops.map fun K => .jobDropped K.id g J.id) ∧
        (t.link G.owner.other).notices = (s.link G.owner.other).notices ∧
        (∀ i : SlotId, t.dir[i].gen = s.dir[i].gen ∧
          (t.block i).map (fun b => (b.name, b.size, b.base, b.dest)) =
            (s.block i).map fun b => (b.name, b.size, b.base, b.dest)) ∧
        t.store = s.store ∧ t.free = s.free ∧ t.pack = s.pack ∧ t.nextId = s.nextId ∧ t.pins = s.pins ∧ t.mode = s.mode
end

