-- ==== Sys2Proof/Laws/State.lean ====
section
/-! SUPPORT. What each update of the state leaves in each field: one lemma per field, so that no proof unfolds a record
update. -/

namespace Sys2Proof.Machine

/-! ## `setLink`: every field but the links; the link itself -/

@[simp] theorem State.setLink_mode (s : State) (x : LinkId) (l : Link) : (s.setLink x l).mode = s.mode := by
  cases x <;> rfl

@[simp] theorem State.setLink_started (s : State) (x : LinkId) (l : Link) : (s.setLink x l).started = s.started := by
  cases x <;> rfl

@[simp] theorem State.setLink_resetnHigh (s : State) (x : LinkId) (l : Link) : (s.setLink x l).resetnHigh = s.resetnHigh := by
  cases x <;> rfl

@[simp] theorem State.setLink_store (s : State) (x : LinkId) (l : Link) : (s.setLink x l).store = s.store := by
  cases x <;> rfl

@[simp] theorem State.setLink_dir (s : State) (x : LinkId) (l : Link) : (s.setLink x l).dir = s.dir := by
  cases x <;> rfl

@[simp] theorem State.setLink_free (s : State) (x : LinkId) (l : Link) : (s.setLink x l).free = s.free := by
  cases x <;> rfl

@[simp] theorem State.setLink_pack (s : State) (x : LinkId) (l : Link) : (s.setLink x l).pack = s.pack := by
  cases x <;> rfl

@[simp] theorem State.setLink_lanes (s : State) (x : LinkId) (l : Link) : (s.setLink x l).lanes = s.lanes := by
  cases x <;> rfl

@[simp] theorem State.setLink_pins (s : State) (x : LinkId) (l : Link) : (s.setLink x l).pins = s.pins := by
  cases x <;> rfl

@[simp] theorem State.setLink_gangs (s : State) (x : LinkId) (l : Link) : (s.setLink x l).gangs = s.gangs := by
  cases x <;> rfl

@[simp] theorem State.setLink_nextId (s : State) (x : LinkId) (l : Link) : (s.setLink x l).nextId = s.nextId := by
  cases x <;> rfl

@[simp] theorem State.setLink_gap (s : State) (x : LinkId) (l : Link) : (s.setLink x l).gap = s.gap := by
  cases x <;> rfl

@[simp] theorem State.setLink_rate (s : State) (x : LinkId) (l : Link) : (s.setLink x l).rate = s.rate := by
  cases x <;> rfl

@[simp] theorem State.setLink_silent (s : State) (x : LinkId) (l : Link) : (s.setLink x l).silent = s.silent := by
  cases x <;> rfl

@[simp] theorem State.setLink_ssel (s : State) (x : LinkId) (l : Link) : (s.setLink x l).ssel = s.ssel := by
  cases x <;> rfl

@[simp] theorem State.setLink_sdo (s : State) (x : LinkId) (l : Link) : (s.setLink x l).sdo = s.sdo := by
  cases x <;> rfl

@[simp] theorem State.setLink_fresh (s : State) (x : LinkId) (l : Link) : (s.setLink x l).fresh = s.fresh := by
  cases x <;> rfl

@[simp] theorem State.setLink_pending (s : State) (x : LinkId) (l : Link) : (s.setLink x l).pending = s.pending := by
  cases x <;> rfl

@[simp] theorem State.link_a (s : State) : s.link .a = s.linkA := rfl

@[simp] theorem State.link_b (s : State) : s.link .b = s.linkB := rfl

@[simp] theorem State.setLink_link_self (s : State) (x : LinkId) (l : Link) : (s.setLink x l).link x = l := by
  cases x <;> rfl

theorem State.setLink_link_ne (s : State) {x y : LinkId} (l : Link) (h : y ≠ x) : (s.setLink x l).link y = s.link y := by
  cases x <;> cases y <;> first | rfl | exact absurd rfl h

@[simp] theorem State.setLink_link_other (s : State) (x : LinkId) (l : Link) :
    (s.setLink x l).link x.other = s.link x.other := by
  cases x <;> rfl

@[simp] theorem State.setLink_setLink (s : State) (x : LinkId) (l k : Link) : (s.setLink x l).setLink x k = s.setLink x k := by
  cases x <;> rfl

@[simp] theorem State.setLink_same (s : State) (x : LinkId) : s.setLink x (s.link x) = s := by
  cases x <;> rfl

theorem State.setLink_comm (s : State) {x y : LinkId} (l k : Link) (h : y ≠ x) :
    (s.setLink x l).setLink y k = (s.setLink y k).setLink x l := by
  cases x <;> cases y <;> first | rfl | exact absurd rfl h

theorem State.modLink_eq (s : State) (x : LinkId) (f : Link → Link) : s.modLink x f = s.setLink x (f (s.link x)) := rfl

/-! ## `setGang` -/

@[simp] theorem State.setGang_mode (s : State) (g : GangId) (o : Option Gang) : (s.setGang g o).mode = s.mode := rfl

@[simp] theorem State.setGang_started (s : State) (g : GangId) (o : Option Gang) : (s.setGang g o).started = s.started := rfl

@[simp] theorem State.setGang_resetnHigh (s : State) (g : GangId) (o : Option Gang) : (s.setGang g o).resetnHigh = s.resetnHigh := rfl

@[simp] theorem State.setGang_store (s : State) (g : GangId) (o : Option Gang) : (s.setGang g o).store = s.store := rfl

@[simp] theorem State.setGang_dir (s : State) (g : GangId) (o : Option Gang) : (s.setGang g o).dir = s.dir := rfl

@[simp] theorem State.setGang_free (s : State) (g : GangId) (o : Option Gang) : (s.setGang g o).free = s.free := rfl

@[simp] theorem State.setGang_pack (s : State) (g : GangId) (o : Option Gang) : (s.setGang g o).pack = s.pack := rfl

@[simp] theorem State.setGang_lanes (s : State) (g : GangId) (o : Option Gang) : (s.setGang g o).lanes = s.lanes := rfl

@[simp] theorem State.setGang_pins (s : State) (g : GangId) (o : Option Gang) : (s.setGang g o).pins = s.pins := rfl

@[simp] theorem State.setGang_nextId (s : State) (g : GangId) (o : Option Gang) : (s.setGang g o).nextId = s.nextId := rfl

@[simp] theorem State.setGang_linkA (s : State) (g : GangId) (o : Option Gang) : (s.setGang g o).linkA = s.linkA := rfl

@[simp] theorem State.setGang_linkB (s : State) (g : GangId) (o : Option Gang) : (s.setGang g o).linkB = s.linkB := rfl

@[simp] theorem State.setGang_gap (s : State) (g : GangId) (o : Option Gang) : (s.setGang g o).gap = s.gap := rfl

@[simp] theorem State.setGang_rate (s : State) (g : GangId) (o : Option Gang) : (s.setGang g o).rate = s.rate := rfl

@[simp] theorem State.setGang_silent (s : State) (g : GangId) (o : Option Gang) : (s.setGang g o).silent = s.silent := rfl

@[simp] theorem State.setGang_ssel (s : State) (g : GangId) (o : Option Gang) : (s.setGang g o).ssel = s.ssel := rfl

@[simp] theorem State.setGang_sdo (s : State) (g : GangId) (o : Option Gang) : (s.setGang g o).sdo = s.sdo := rfl

@[simp] theorem State.setGang_fresh (s : State) (g : GangId) (o : Option Gang) : (s.setGang g o).fresh = s.fresh := rfl

@[simp] theorem State.setGang_pending (s : State) (g : GangId) (o : Option Gang) : (s.setGang g o).pending = s.pending := rfl

@[simp] theorem State.setGang_link (s : State) (g : GangId) (o : Option Gang) (y : LinkId) : (s.setGang g o).link y = s.link y := by
  cases y <;> rfl

/-! ## `modGang` -/

@[simp] theorem State.modGang_mode (s : State) (g : GangId) (f : Gang → Gang) : (s.modGang g f).mode = s.mode := rfl

@[simp] theorem State.modGang_started (s : State) (g : GangId) (f : Gang → Gang) : (s.modGang g f).started = s.started := rfl

@[simp] theorem State.modGang_resetnHigh (s : State) (g : GangId) (f : Gang → Gang) : (s.modGang g f).resetnHigh = s.resetnHigh := rfl

@[simp] theorem State.modGang_store (s : State) (g : GangId) (f : Gang → Gang) : (s.modGang g f).store = s.store := rfl

@[simp] theorem State.modGang_dir (s : State) (g : GangId) (f : Gang → Gang) : (s.modGang g f).dir = s.dir := rfl

@[simp] theorem State.modGang_free (s : State) (g : GangId) (f : Gang → Gang) : (s.modGang g f).free = s.free := rfl

@[simp] theorem State.modGang_pack (s : State) (g : GangId) (f : Gang → Gang) : (s.modGang g f).pack = s.pack := rfl

@[simp] theorem State.modGang_lanes (s : State) (g : GangId) (f : Gang → Gang) : (s.modGang g f).lanes = s.lanes := rfl

@[simp] theorem State.modGang_pins (s : State) (g : GangId) (f : Gang → Gang) : (s.modGang g f).pins = s.pins := rfl

@[simp] theorem State.modGang_nextId (s : State) (g : GangId) (f : Gang → Gang) : (s.modGang g f).nextId = s.nextId := rfl

@[simp] theorem State.modGang_linkA (s : State) (g : GangId) (f : Gang → Gang) : (s.modGang g f).linkA = s.linkA := rfl

@[simp] theorem State.modGang_linkB (s : State) (g : GangId) (f : Gang → Gang) : (s.modGang g f).linkB = s.linkB := rfl

@[simp] theorem State.modGang_gap (s : State) (g : GangId) (f : Gang → Gang) : (s.modGang g f).gap = s.gap := rfl

@[simp] theorem State.modGang_rate (s : State) (g : GangId) (f : Gang → Gang) : (s.modGang g f).rate = s.rate := rfl

@[simp] theorem State.modGang_silent (s : State) (g : GangId) (f : Gang → Gang) : (s.modGang g f).silent = s.silent := rfl

@[simp] theorem State.modGang_ssel (s : State) (g : GangId) (f : Gang → Gang) : (s.modGang g f).ssel = s.ssel := rfl

@[simp] theorem State.modGang_sdo (s : State) (g : GangId) (f : Gang → Gang) : (s.modGang g f).sdo = s.sdo := rfl

@[simp] theorem State.modGang_fresh (s : State) (g : GangId) (f : Gang → Gang) : (s.modGang g f).fresh = s.fresh := rfl

@[simp] theorem State.modGang_pending (s : State) (g : GangId) (f : Gang → Gang) : (s.modGang g f).pending = s.pending := rfl

@[simp] theorem State.modGang_link (s : State) (g : GangId) (f : Gang → Gang) (y : LinkId) : (s.modGang g f).link y = s.link y := by
  cases y <;> rfl

/-! ## `setBlock` -/

@[simp] theorem State.setBlock_mode (s : State) (i : SlotId) (b : Option Block) : (s.setBlock i b).mode = s.mode := rfl

@[simp] theorem State.setBlock_started (s : State) (i : SlotId) (b : Option Block) : (s.setBlock i b).started = s.started := rfl

@[simp] theorem State.setBlock_resetnHigh (s : State) (i : SlotId) (b : Option Block) : (s.setBlock i b).resetnHigh = s.resetnHigh := rfl

@[simp] theorem State.setBlock_store (s : State) (i : SlotId) (b : Option Block) : (s.setBlock i b).store = s.store := rfl

@[simp] theorem State.setBlock_free (s : State) (i : SlotId) (b : Option Block) : (s.setBlock i b).free = s.free := rfl

@[simp] theorem State.setBlock_pack (s : State) (i : SlotId) (b : Option Block) : (s.setBlock i b).pack = s.pack := rfl

@[simp] theorem State.setBlock_lanes (s : State) (i : SlotId) (b : Option Block) : (s.setBlock i b).lanes = s.lanes := rfl

@[simp] theorem State.setBlock_pins (s : State) (i : SlotId) (b : Option Block) : (s.setBlock i b).pins = s.pins := rfl

@[simp] theorem State.setBlock_gangs (s : State) (i : SlotId) (b : Option Block) : (s.setBlock i b).gangs = s.gangs := rfl

@[simp] theorem State.setBlock_nextId (s : State) (i : SlotId) (b : Option Block) : (s.setBlock i b).nextId = s.nextId := rfl

@[simp] theorem State.setBlock_linkA (s : State) (i : SlotId) (b : Option Block) : (s.setBlock i b).linkA = s.linkA := rfl

@[simp] theorem State.setBlock_linkB (s : State) (i : SlotId) (b : Option Block) : (s.setBlock i b).linkB = s.linkB := rfl

@[simp] theorem State.setBlock_gap (s : State) (i : SlotId) (b : Option Block) : (s.setBlock i b).gap = s.gap := rfl

@[simp] theorem State.setBlock_rate (s : State) (i : SlotId) (b : Option Block) : (s.setBlock i b).rate = s.rate := rfl

@[simp] theorem State.setBlock_silent (s : State) (i : SlotId) (b : Option Block) : (s.setBlock i b).silent = s.silent := rfl

@[simp] theorem State.setBlock_ssel (s : State) (i : SlotId) (b : Option Block) : (s.setBlock i b).ssel = s.ssel := rfl

@[simp] theorem State.setBlock_sdo (s : State) (i : SlotId) (b : Option Block) : (s.setBlock i b).sdo = s.sdo := rfl

@[simp] theorem State.setBlock_fresh (s : State) (i : SlotId) (b : Option Block) : (s.setBlock i b).fresh = s.fresh := rfl

@[simp] theorem State.setBlock_pending (s : State) (i : SlotId) (b : Option Block) : (s.setBlock i b).pending = s.pending := rfl

@[simp] theorem State.setBlock_link (s : State) (i : SlotId) (b : Option Block) (y : LinkId) : (s.setBlock i b).link y = s.link y := by
  cases y <;> rfl

/-! ## `modBlock` -/

@[simp] theorem State.modBlock_mode (s : State) (i : SlotId) (f : Block → Block) : (s.modBlock i f).mode = s.mode := rfl

@[simp] theorem State.modBlock_started (s : State) (i : SlotId) (f : Block → Block) : (s.modBlock i f).started = s.started := rfl

@[simp] theorem State.modBlock_resetnHigh (s : State) (i : SlotId) (f : Block → Block) : (s.modBlock i f).resetnHigh = s.resetnHigh := rfl

@[simp] theorem State.modBlock_store (s : State) (i : SlotId) (f : Block → Block) : (s.modBlock i f).store = s.store := rfl

@[simp] theorem State.modBlock_free (s : State) (i : SlotId) (f : Block → Block) : (s.modBlock i f).free = s.free := rfl

@[simp] theorem State.modBlock_pack (s : State) (i : SlotId) (f : Block → Block) : (s.modBlock i f).pack = s.pack := rfl

@[simp] theorem State.modBlock_lanes (s : State) (i : SlotId) (f : Block → Block) : (s.modBlock i f).lanes = s.lanes := rfl

@[simp] theorem State.modBlock_pins (s : State) (i : SlotId) (f : Block → Block) : (s.modBlock i f).pins = s.pins := rfl

@[simp] theorem State.modBlock_gangs (s : State) (i : SlotId) (f : Block → Block) : (s.modBlock i f).gangs = s.gangs := rfl

@[simp] theorem State.modBlock_nextId (s : State) (i : SlotId) (f : Block → Block) : (s.modBlock i f).nextId = s.nextId := rfl

@[simp] theorem State.modBlock_linkA (s : State) (i : SlotId) (f : Block → Block) : (s.modBlock i f).linkA = s.linkA := rfl

@[simp] theorem State.modBlock_linkB (s : State) (i : SlotId) (f : Block → Block) : (s.modBlock i f).linkB = s.linkB := rfl

@[simp] theorem State.modBlock_gap (s : State) (i : SlotId) (f : Block → Block) : (s.modBlock i f).gap = s.gap := rfl

@[simp] theorem State.modBlock_rate (s : State) (i : SlotId) (f : Block → Block) : (s.modBlock i f).rate = s.rate := rfl

@[simp] theorem State.modBlock_silent (s : State) (i : SlotId) (f : Block → Block) : (s.modBlock i f).silent = s.silent := rfl

@[simp] theorem State.modBlock_ssel (s : State) (i : SlotId) (f : Block → Block) : (s.modBlock i f).ssel = s.ssel := rfl

@[simp] theorem State.modBlock_sdo (s : State) (i : SlotId) (f : Block → Block) : (s.modBlock i f).sdo = s.sdo := rfl

@[simp] theorem State.modBlock_fresh (s : State) (i : SlotId) (f : Block → Block) : (s.modBlock i f).fresh = s.fresh := rfl

@[simp] theorem State.modBlock_pending (s : State) (i : SlotId) (f : Block → Block) : (s.modBlock i f).pending = s.pending := rfl

@[simp] theorem State.modBlock_link (s : State) (i : SlotId) (f : Block → Block) (y : LinkId) : (s.modBlock i f).link y = s.link y := by
  cases y <;> rfl

/-! ## `modLanes` -/

@[simp] theorem State.modLanes_mode (s : State) (G : Gang) (f : Nat → Lane → Lane) : (s.modLanes G f).mode = s.mode := rfl

@[simp] theorem State.modLanes_started (s : State) (G : Gang) (f : Nat → Lane → Lane) : (s.modLanes G f).started = s.started := rfl

@[simp] theorem State.modLanes_resetnHigh (s : State) (G : Gang) (f : Nat → Lane → Lane) : (s.modLanes G f).resetnHigh = s.resetnHigh := rfl

@[simp] theorem State.modLanes_store (s : State) (G : Gang) (f : Nat → Lane → Lane) : (s.modLanes G f).store = s.store := rfl

@[simp] theorem State.modLanes_dir (s : State) (G : Gang) (f : Nat → Lane → Lane) : (s.modLanes G f).dir = s.dir := rfl

@[simp] theorem State.modLanes_free (s : State) (G : Gang) (f : Nat → Lane → Lane) : (s.modLanes G f).free = s.free := rfl

@[simp] theorem State.modLanes_pack (s : State) (G : Gang) (f : Nat → Lane → Lane) : (s.modLanes G f).pack = s.pack := rfl

@[simp] theorem State.modLanes_pins (s : State) (G : Gang) (f : Nat → Lane → Lane) : (s.modLanes G f).pins = s.pins := rfl

@[simp] theorem State.modLanes_gangs (s : State) (G : Gang) (f : Nat → Lane → Lane) : (s.modLanes G f).gangs = s.gangs := rfl

@[simp] theorem State.modLanes_nextId (s : State) (G : Gang) (f : Nat → Lane → Lane) : (s.modLanes G f).nextId = s.nextId := rfl

@[simp] theorem State.modLanes_linkA (s : State) (G : Gang) (f : Nat → Lane → Lane) : (s.modLanes G f).linkA = s.linkA := rfl

@[simp] theorem State.modLanes_linkB (s : State) (G : Gang) (f : Nat → Lane → Lane) : (s.modLanes G f).linkB = s.linkB := rfl

@[simp] theorem State.modLanes_gap (s : State) (G : Gang) (f : Nat → Lane → Lane) : (s.modLanes G f).gap = s.gap := rfl

@[simp] theorem State.modLanes_rate (s : State) (G : Gang) (f : Nat → Lane → Lane) : (s.modLanes G f).rate = s.rate := rfl

@[simp] theorem State.modLanes_silent (s : State) (G : Gang) (f : Nat → Lane → Lane) : (s.modLanes G f).silent = s.silent := rfl

@[simp] theorem State.modLanes_ssel (s : State) (G : Gang) (f : Nat → Lane → Lane) : (s.modLanes G f).ssel = s.ssel := rfl

@[simp] theorem State.modLanes_sdo (s : State) (G : Gang) (f : Nat → Lane → Lane) : (s.modLanes G f).sdo = s.sdo := rfl

@[simp] theorem State.modLanes_fresh (s : State) (G : Gang) (f : Nat → Lane → Lane) : (s.modLanes G f).fresh = s.fresh := rfl

@[simp] theorem State.modLanes_pending (s : State) (G : Gang) (f : Nat → Lane → Lane) : (s.modLanes G f).pending = s.pending := rfl

@[simp] theorem State.modLanes_link (s : State) (G : Gang) (f : Nat → Lane → Lane) (y : LinkId) : (s.modLanes G f).link y = s.link y := by
  cases y <;> rfl

/-! ## `setDrivers` -/

@[simp] theorem State.setDrivers_mode (s : State) (G : Gang) (on : Bool) : (s.setDrivers G on).mode = s.mode := rfl

@[simp] theorem State.setDrivers_started (s : State) (G : Gang) (on : Bool) : (s.setDrivers G on).started = s.started := rfl

@[simp] theorem State.setDrivers_resetnHigh (s : State) (G : Gang) (on : Bool) : (s.setDrivers G on).resetnHigh = s.resetnHigh := rfl

@[simp] theorem State.setDrivers_store (s : State) (G : Gang) (on : Bool) : (s.setDrivers G on).store = s.store := rfl

@[simp] theorem State.setDrivers_dir (s : State) (G : Gang) (on : Bool) : (s.setDrivers G on).dir = s.dir := rfl

@[simp] theorem State.setDrivers_free (s : State) (G : Gang) (on : Bool) : (s.setDrivers G on).free = s.free := rfl

@[simp] theorem State.setDrivers_pack (s : State) (G : Gang) (on : Bool) : (s.setDrivers G on).pack = s.pack := rfl

@[simp] theorem State.setDrivers_pins (s : State) (G : Gang) (on : Bool) : (s.setDrivers G on).pins = s.pins := rfl

@[simp] theorem State.setDrivers_gangs (s : State) (G : Gang) (on : Bool) : (s.setDrivers G on).gangs = s.gangs := rfl

@[simp] theorem State.setDrivers_nextId (s : State) (G : Gang) (on : Bool) : (s.setDrivers G on).nextId = s.nextId := rfl

@[simp] theorem State.setDrivers_linkA (s : State) (G : Gang) (on : Bool) : (s.setDrivers G on).linkA = s.linkA := rfl

@[simp] theorem State.setDrivers_linkB (s : State) (G : Gang) (on : Bool) : (s.setDrivers G on).linkB = s.linkB := rfl

@[simp] theorem State.setDrivers_gap (s : State) (G : Gang) (on : Bool) : (s.setDrivers G on).gap = s.gap := rfl

@[simp] theorem State.setDrivers_rate (s : State) (G : Gang) (on : Bool) : (s.setDrivers G on).rate = s.rate := rfl

@[simp] theorem State.setDrivers_silent (s : State) (G : Gang) (on : Bool) : (s.setDrivers G on).silent = s.silent := rfl

@[simp] theorem State.setDrivers_ssel (s : State) (G : Gang) (on : Bool) : (s.setDrivers G on).ssel = s.ssel := rfl

@[simp] theorem State.setDrivers_sdo (s : State) (G : Gang) (on : Bool) : (s.setDrivers G on).sdo = s.sdo := rfl

@[simp] theorem State.setDrivers_fresh (s : State) (G : Gang) (on : Bool) : (s.setDrivers G on).fresh = s.fresh := rfl

@[simp] theorem State.setDrivers_pending (s : State) (G : Gang) (on : Bool) : (s.setDrivers G on).pending = s.pending := rfl

@[simp] theorem State.setDrivers_link (s : State) (G : Gang) (on : Bool) (y : LinkId) : (s.setDrivers G on).link y = s.link y := by
  cases y <;> rfl

/-! ## `senseBoard` -/

@[simp] theorem State.senseBoard_mode (s : State) (board : Board) : (s.senseBoard board).mode = s.mode := rfl

@[simp] theorem State.senseBoard_started (s : State) (board : Board) : (s.senseBoard board).started = s.started := rfl

@[simp] theorem State.senseBoard_resetnHigh (s : State) (board : Board) : (s.senseBoard board).resetnHigh = s.resetnHigh := rfl

@[simp] theorem State.senseBoard_store (s : State) (board : Board) : (s.senseBoard board).store = s.store := rfl

@[simp] theorem State.senseBoard_dir (s : State) (board : Board) : (s.senseBoard board).dir = s.dir := rfl

@[simp] theorem State.senseBoard_free (s : State) (board : Board) : (s.senseBoard board).free = s.free := rfl

@[simp] theorem State.senseBoard_pack (s : State) (board : Board) : (s.senseBoard board).pack = s.pack := rfl

@[simp] theorem State.senseBoard_lanes (s : State) (board : Board) : (s.senseBoard board).lanes = s.lanes := rfl

@[simp] theorem State.senseBoard_gangs (s : State) (board : Board) : (s.senseBoard board).gangs = s.gangs := rfl

@[simp] theorem State.senseBoard_nextId (s : State) (board : Board) : (s.senseBoard board).nextId = s.nextId := rfl

@[simp] theorem State.senseBoard_linkA (s : State) (board : Board) : (s.senseBoard board).linkA = s.linkA := rfl

@[simp] theorem State.senseBoard_linkB (s : State) (board : Board) : (s.senseBoard board).linkB = s.linkB := rfl

@[simp] theorem State.senseBoard_gap (s : State) (board : Board) : (s.senseBoard board).gap = s.gap := rfl

@[simp] theorem State.senseBoard_rate (s : State) (board : Board) : (s.senseBoard board).rate = s.rate := rfl

@[simp] theorem State.senseBoard_silent (s : State) (board : Board) : (s.senseBoard board).silent = s.silent := rfl

@[simp] theorem State.senseBoard_ssel (s : State) (board : Board) : (s.senseBoard board).ssel = s.ssel := rfl

@[simp] theorem State.senseBoard_sdo (s : State) (board : Board) : (s.senseBoard board).sdo = s.sdo := rfl

@[simp] theorem State.senseBoard_pending (s : State) (board : Board) : (s.senseBoard board).pending = s.pending := rfl

@[simp] theorem State.senseBoard_link (s : State) (board : Board) (y : LinkId) : (s.senseBoard board).link y = s.link y := by
  cases y <;> rfl

end Sys2Proof.Machine
end

