-- ==== Sys2Proof/Laws/Vectors.lean ====
section
/-! SUPPORT. Reading a gang, a block or a lane after an update of one: what `vecMap`, `setGang`, `modGang`, `setBlock`,
`modBlock` and `modLanes` leave at each place. -/

namespace Sys2Proof.Machine

@[simp] theorem vecMap_getElem {α β : Type} {n : Nat} (f : Nat → α → β) (v : Vector α n) (i : Nat) (h : i < n) :
    (vecMap f v)[i] = f i v[i] := by
  simp [vecMap]

/-! ## Gangs -/

@[simp] theorem State.setGang_gang_self (s : State) (g : GangId) (o : Option Gang) : (s.setGang g o).gang g = o := by
  simp [State.gang, State.setGang]

theorem State.setGang_gang_ne (s : State) {g h : GangId} (o : Option Gang) (ne : h ≠ g) :
    (s.setGang g o).gang h = s.gang h := by
  have : g.val ≠ h.val := fun e => ne (Fin.ext e.symm)
  simp [State.gang, State.setGang, this]

@[simp] theorem State.modGang_gang_self (s : State) (g : GangId) (f : Gang → Gang) :
    (s.modGang g f).gang g = (s.gang g).map f := by
  simp [State.modGang]

theorem State.modGang_gang_ne (s : State) {g h : GangId} (f : Gang → Gang) (ne : h ≠ g) :
    (s.modGang g f).gang h = s.gang h := by
  simp [State.modGang, State.setGang_gang_ne s _ ne]

/-! ## Blocks -/

@[simp] theorem State.setBlock_block_self (s : State) (i : SlotId) (b : Option Block) : (s.setBlock i b).block i = b := by
  simp [State.block, State.setBlock]

theorem State.setBlock_block_ne (s : State) {i j : SlotId} (b : Option Block) (ne : j ≠ i) :
    (s.setBlock i b).block j = s.block j := by
  have : i.val ≠ j.val := fun e => ne (Fin.ext e.symm)
  simp [State.block, State.setBlock, this]

@[simp] theorem State.modBlock_block_self (s : State) (i : SlotId) (f : Block → Block) :
    (s.modBlock i f).block i = (s.block i).map f := by
  simp [State.modBlock]

theorem State.modBlock_block_ne (s : State) {i j : SlotId} (f : Block → Block) (ne : j ≠ i) :
    (s.modBlock i f).block j = s.block j := by
  simp [State.modBlock, State.setBlock_block_ne s _ ne]

/-- A change of a record leaves every generation as it was (R2). -/
@[simp] theorem State.setBlock_gen (s : State) (i : SlotId) (b : Option Block) (j : SlotId) :
    ((s.setBlock i b).dir[j]).gen = (s.dir[j]).gen := by
  by_cases h : i = j
  · subst h; simp [State.setBlock]
  · have : i.val ≠ j.val := fun e => h (Fin.ext e)
    simp [State.setBlock, this]

@[simp] theorem State.modBlock_gen (s : State) (i : SlotId) (f : Block → Block) (j : SlotId) :
    ((s.modBlock i f).dir[j]).gen = (s.dir[j]).gen :=
  s.setBlock_gen i _ j

/-! ## Lanes -/

theorem State.modLanes_lane (s : State) (G : Gang) (f : Nat → Lane → Lane) (i : LaneId) :
    (s.modLanes G f).lanes[i] = if G.has i.val then f i.val s.lanes[i] else s.lanes[i] := by
  simp [State.modLanes]

theorem State.setDrivers_lane (s : State) (G : Gang) (on : Bool) (i : LaneId) :
    (s.setDrivers G on).lanes[i] = if G.has i.val then { s.lanes[i] with enabled := on } else s.lanes[i] := by
  simp [State.setDrivers, State.modLanes]

end Sys2Proof.Machine
end

