-- ==== Sys2Proof/Laws/Beats.lean ====
section
/-! SUPPORT. What the engine's small operations do to a gang that has an active job: each is one write of the gang's
record, so that no proof opens `modGang`. -/

namespace Sys2Proof.Machine

@[simp] theorem State.setGang_setGang (s : State) (g : GangId) (o p : Option Gang) :
    (s.setGang g o).setGang g p = s.setGang g p := by
  simp [State.setGang]

theorem State.setGang_same (s : State) (g : GangId) : s.setGang g (s.gang g) = s := by
  simp [State.setGang, State.gang]

theorem State.modGang_eq {s : State} {g : GangId} {G : Gang} (h : s.gang g = some G) (f : Gang → Gang) :
    s.modGang g f = s.setGang g (some (f G)) := by
  simp [State.modGang, h]

/-- Acting on the active job is acting on its gang, its job and its beat state. -/
theorem State.withActive_eq {s : State} {g : GangId} {G : Gang} {J : Job} {later : List Job} {B : Beat}
    (h : s.Active g G J later B) (f : Gang → Job → Beat → State) : s.withActive g f = f G J B := by
  obtain ⟨h1, h2, h3⟩ := h
  simp [State.withActive, h1, h2, h3]

/-- Without an active job nothing acts. -/
theorem State.withActive_none {s : State} {g : GangId}
    (h : ∀ (G : Gang) (J : Job) (later : List Job) (B : Beat), ¬ s.Active g G J later B)
    (f : Gang → Job → Beat → State) : s.withActive g f = s := by
  unfold State.withActive
  cases hG : s.gang g with
  | none => rfl
  | some G =>
    cases hq : G.queue with
    | nil => simp [hq]
    | cons J later =>
      cases hb : G.beat with
      | none => simp [hq, hb]
      | some B => exact absurd ⟨hG, hq, hb⟩ (h G J later B)

/-- The active job of a state of which only the gang's record was written. -/
theorem State.active_setGang (s : State) (g : GangId) {G : Gang} {J : Job} {later : List Job} {B : Beat}
    (hq : G.queue = J :: later) (hb : G.beat = some B) : (s.setGang g (some G)).Active g G J later B :=
  ⟨State.setGang_gang_self s g _, hq, hb⟩

theorem State.modBeat_eq {s : State} {g : GangId} {G : Gang} {B : Beat} (h : s.gang g = some G) (hb : G.beat = some B)
    (f : Beat → Beat) : s.modBeat g f = s.setGang g (some { G with beat := some (f B) }) := by
  simp [State.modBeat, State.modGang, h, hb]

theorem State.setPhase_eq {s : State} {g : GangId} {G : Gang} {B : Beat} (h : s.gang g = some G) (hb : G.beat = some B)
    (p : Phase) : s.setPhase g p = s.setGang g (some { G with beat := some { B with phase := some p } }) :=
  State.modBeat_eq h hb _

theorem State.setCtl_eq {s : State} {g : GangId} {G : Gang} (h : s.gang g = some G) (level : Bool) :
    s.setCtl g level = s.setGang g (some { G with ctl := level }) := by
  simp [State.setCtl, State.modGang, h]

theorem State.setJobState_eq {s : State} {g : GangId} {G : Gang} {J : Job} {later : List Job} (h : s.gang g = some G)
    (hq : G.queue = J :: later) (st : JobState) :
    s.setJobState g st = s.setGang g (some { G with queue := { J with state := st } :: later }) := by
  simp [State.setJobState, State.modGang, h, hq]

/-! ## On a state whose gang record has just been written: unconditional, for the simplifier -/

@[simp] theorem State.setGang_modGang (s : State) (g : GangId) (G : Gang) (f : Gang → Gang) :
    (s.setGang g (some G)).modGang g f = s.setGang g (some (f G)) := by
  simp [State.modGang]

@[simp] theorem State.setGang_setCtl (s : State) (g : GangId) (G : Gang) (level : Bool) :
    (s.setGang g (some G)).setCtl g level = s.setGang g (some { G with ctl := level }) := by
  simp [State.setCtl]

@[simp] theorem State.setGang_modBeat (s : State) (g : GangId) (G : Gang) (f : Beat → Beat) :
    (s.setGang g (some G)).modBeat g f = s.setGang g (some { G with beat := G.beat.map f }) := by
  simp [State.modBeat]

@[simp] theorem State.setGang_setPhase (s : State) (g : GangId) (G : Gang) (p : Phase) :
    (s.setGang g (some G)).setPhase g p =
      s.setGang g (some { G with beat := G.beat.map fun B => { B with phase := some p } }) := by
  simp [State.setPhase]

@[simp] theorem State.setGang_setJobState (s : State) (g : GangId) (G : Gang) (st : JobState) :
    (s.setGang g (some G)).setJobState g st =
      s.setGang g (some
        { G with
          queue := match G.queue with
            | J :: rest => { J with state := st } :: rest
            | [] => [] }) := by
  cases h : G.queue <;> simp [State.setJobState, h]

/-- The drive, sample and settling of a gang follow the pins and the lanes, which a write of the record does not change. -/
@[simp] theorem State.setGang_flg (s : State) (g : GangId) (o : Option Gang) (G : Gang) : (s.setGang g o).flg G = s.flg G := rfl

@[simp] theorem State.setGang_heldOff (s : State) (g : GangId) (o : Option Gang) (G : Gang) :
    (s.setGang g o).heldOff G = s.heldOff G := rfl

/-- The board's data levels are not among the levels of FLG and HOLD. -/
@[simp] theorem State.senseBoard_flg (s : State) (board : Board) (G : Gang) : (s.senseBoard board).flg G = s.flg G := by
  simp [State.flg, State.senseBoard]

@[simp] theorem State.senseBoard_gang (s : State) (board : Board) (g : GangId) : (s.senseBoard board).gang g = s.gang g := rfl

end Sys2Proof.Machine
end

