-- ==== Sys2Proof/Laws/Frames.lean ====
section
/-! SUPPORT. What the operations of an engine and of block access control leave alone. Up to a beat's first step only
the gang table and the lanes can change; a grant evaluation, a claim and an activation change the directory too. -/

namespace Sys2Proof.Machine

/-- Only the gang table and the lanes differ. -/
def OnlyGangs (s t : State) : Prop :=
  ∃ (gangs : Vector (Option Gang) 8) (lanes : Vector Lane 10), t = { s with gangs := gangs, lanes := lanes }

/-- Only the gang table, the lanes and the directory differ. -/
def OnlyWork (s t : State) : Prop :=
  ∃ (gangs : Vector (Option Gang) 8) (lanes : Vector Lane 10) (dir : Vector Slot 48),
    t = { s with gangs := gangs, lanes := lanes, dir := dir }

theorem OnlyGangs.refl (s : State) : OnlyGangs s s := ⟨s.gangs, s.lanes, rfl⟩

theorem OnlyGangs.trans {s t u : State} : OnlyGangs s t → OnlyGangs t u → OnlyGangs s u := by
  rintro ⟨_, _, rfl⟩ ⟨gs, ls, rfl⟩
  exact ⟨gs, ls, rfl⟩

theorem OnlyWork.refl (s : State) : OnlyWork s s := ⟨s.gangs, s.lanes, s.dir, rfl⟩

theorem OnlyWork.trans {s t u : State} : OnlyWork s t → OnlyWork t u → OnlyWork s u := by
  rintro ⟨_, _, _, rfl⟩ ⟨gs, ls, d, rfl⟩
  exact ⟨gs, ls, d, rfl⟩

theorem OnlyGangs.work {s t : State} : OnlyGangs s t → OnlyWork s t := by
  rintro ⟨gs, ls, rfl⟩
  exact ⟨gs, ls, s.dir, rfl⟩

/-! ## The fields that stay -/

theorem OnlyWork.fields {s t : State} (h : OnlyWork s t) :
    t.mode = s.mode ∧ t.store = s.store ∧ t.free = s.free ∧ t.pack = s.pack ∧ t.pins = s.pins ∧ t.nextId = s.nextId ∧
      (∀ x, t.link x = s.link x) ∧ t.gap = s.gap ∧ t.rate = s.rate ∧ t.silent = s.silent ∧ t.ssel = s.ssel ∧ t.sdo = s.sdo ∧
      t.fresh = s.fresh ∧ t.pending = s.pending ∧ t.started = s.started ∧ t.resetnHigh = s.resetnHigh := by
  obtain ⟨gs, ls, d, rfl⟩ := h
  exact ⟨rfl, rfl, rfl, rfl, rfl, rfl, fun x => by cases x <;> rfl, rfl, rfl, rfl, rfl, rfl, rfl, rfl, rfl, rfl⟩

theorem OnlyGangs.dir {s t : State} (h : OnlyGangs s t) : t.dir = s.dir := by
  obtain ⟨gs, ls, rfl⟩ := h
  rfl

/-! ## The small operations -/

theorem State.onlyGangs_modGang (s : State) (g : GangId) (f : Gang → Gang) : OnlyGangs s (s.modGang g f) :=
  ⟨_, s.lanes, rfl⟩

theorem State.onlyGangs_modBeat (s : State) (g : GangId) (f : Beat → Beat) : OnlyGangs s (s.modBeat g f) :=
  s.onlyGangs_modGang g _

theorem State.onlyGangs_setPhase (s : State) (g : GangId) (p : Phase) : OnlyGangs s (s.setPhase g p) :=
  s.onlyGangs_modGang g _

theorem State.onlyGangs_setCtl (s : State) (g : GangId) (level : Bool) : OnlyGangs s (s.setCtl g level) :=
  s.onlyGangs_modGang g _

theorem State.onlyGangs_setJobState (s : State) (g : GangId) (st : JobState) : OnlyGangs s (s.setJobState g st) :=
  s.onlyGangs_modGang g _

theorem State.onlyGangs_modLanes (s : State) (G : Gang) (f : Nat → Lane → Lane) : OnlyGangs s (s.modLanes G f) :=
  ⟨s.gangs, _, rfl⟩

theorem State.onlyGangs_setDrivers (s : State) (G : Gang) (on : Bool) : OnlyGangs s (s.setDrivers G on) :=
  s.onlyGangs_modLanes G _

theorem State.onlyGangs_withActive {s : State} {g : GangId} {f : Gang → Job → Beat → State}
    (h : ∀ G J B, OnlyGangs s (f G J B)) : OnlyGangs s (s.withActive g f) := by
  unfold State.withActive
  split
  · exact .refl s
  · split
    · exact h _ _ _
    · exact .refl s

/-! ## Up to the first step of a beat -/

theorem State.onlyGangs_drive (s : State) (g : GangId) : OnlyGangs s (s.drive g) := by
  refine State.onlyGangs_withActive fun G J B => ?_
  split
  · exact .refl s
  · exact (s.onlyGangs_modLanes G _).trans (State.onlyGangs_modBeat _ g _)

theorem State.onlyGangs_driveAndSettle (s : State) (g : GangId) : OnlyGangs s (s.driveAndSettle g) :=
  (s.onlyGangs_drive g).trans (State.onlyGangs_setPhase _ g _)

theorem State.onlyGangs_passReady (s : State) (g : GangId) : OnlyGangs s (s.passReady g) := by
  refine State.onlyGangs_withActive fun G J B => ?_
  split
  · exact s.onlyGangs_driveAndSettle g
  · exact (s.onlyGangs_setCtl g _).trans (State.onlyGangs_setPhase _ g _)

theorem State.onlyGangs_periodStart (s : State) (g : GangId) : OnlyGangs s (s.periodStart g) := by
  refine State.onlyGangs_withActive fun G J B =>
    (s.onlyGangs_modBeat g fun B => { B with periodTimer := .running G.time.period }).trans ?_
  dsimp only
  split
  · exact State.onlyGangs_driveAndSettle _ g
  · exact (State.onlyGangs_setCtl _ g _).trans (State.onlyGangs_setPhase _ g _)

theorem State.onlyGangs_enterFirst (s : State) (g : GangId) : OnlyGangs s (s.enterFirst g) := by
  refine State.onlyGangs_withActive fun G J B => ?_
  split
  · exact .refl s
  · split
    · exact s.onlyGangs_setPhase g _
    · exact s.onlyGangs_passReady g
  · split
    · exact s.onlyGangs_setPhase g _
    · exact s.onlyGangs_passReady g
  · exact s.onlyGangs_setPhase g _
  · split
    · exact s.onlyGangs_driveAndSettle g
    · exact s.onlyGangs_setPhase g _
  · exact s.onlyGangs_setPhase g _
  · split
    · exact s.onlyGangs_setPhase g _
    · exact s.onlyGangs_periodStart g
  · exact s.onlyGangs_periodStart g

theorem State.onlyGangs_beginBeat (s : State) (g : GangId) : OnlyGangs s (s.beginBeat g) :=
  State.onlyGangs_withActive fun _ _ _ => (s.onlyGangs_modBeat g _).trans (State.onlyGangs_enterFirst _ g)

theorem State.onlyGangs_tryBegin (s : State) (g : GangId) : OnlyGangs s (s.tryBegin g) := by
  refine State.onlyGangs_withActive fun G J B => ?_
  split
  · exact s.onlyGangs_beginBeat g
  · exact .refl s

/-! ## Grants, claims and activation -/

theorem State.onlyGangs_handGrant (s : State) (g : GangId) : OnlyGangs s (s.handGrant g) := by
  unfold State.handGrant
  split
  · exact .refl s
  · split
    · exact s.onlyGangs_setJobState g _
    · exact (s.onlyGangs_setJobState g _).trans (State.onlyGangs_tryBegin _ g)
    · exact (s.onlyGangs_setJobState g _).trans (State.onlyGangs_tryBegin _ g)

/-- A grant changes no block: the record was written before it was handed over. -/
theorem State.handGrant_block (s : State) (g : GangId) (i : SlotId) : (s.handGrant g).block i = s.block i := by
  simp only [State.block, (s.onlyGangs_handGrant g).dir]

theorem State.onlyWork_modBlock (s : State) (i : SlotId) (f : Block → Block) : OnlyWork s (s.modBlock i f) :=
  ⟨s.gangs, s.lanes, _, rfl⟩

theorem State.onlyGangs_handGrants (l : List Waiter) (s : State) :
    OnlyGangs s (l.foldl (fun s v => s.handGrant v.gang) s) := by
  induction l generalizing s with
  | nil => exact .refl s
  | cons w ws ih => exact (s.onlyGangs_handGrant w.gang).trans (ih _)

theorem State.onlyWork_evaluate (s : State) (i : SlotId) : OnlyWork s (s.evaluate i) := by
  unfold State.evaluate
  split
  · exact .refl s
  · split
    · exact .refl s
    · split
      · exact .refl s
      · split
        · split
          · exact .refl s
          · exact (s.onlyWork_modBlock i _).trans (State.onlyGangs_handGrant _ _).work
        · split
          · exact .refl s
          · exact (s.onlyWork_modBlock i _).trans (State.onlyGangs_handGrants _ _).work

theorem State.onlyWork_release (s : State) (i : SlotId) (g : GangId) : OnlyWork s (s.release i g) :=
  (s.onlyWork_modBlock i _).trans (State.onlyWork_evaluate _ i)

theorem State.onlyWork_claim (s : State) (g : GangId) : OnlyWork s (s.claim g) := by
  unfold State.claim State.withActive
  split
  · exact .refl s
  · split
    · dsimp only
      split
      · exact .refl s
      · split
        · exact (s.onlyWork_modBlock _ _).trans (State.onlyGangs_handGrant _ _).work
        · exact (s.onlyWork_modBlock _ _).trans (State.onlyGangs_setJobState _ _ _).work
    · exact .refl s

theorem State.onlyWork_activate (s : State) (g : GangId) : OnlyWork s (s.activate g) := by
  unfold State.activate
  split
  · exact .refl s
  · exact ((s.onlyGangs_setDrivers _ _).trans (State.onlyGangs_modGang _ _ _)).work.trans (State.onlyWork_claim _ g)

end Sys2Proof.Machine
end

