-- ==== Sys2Proof/Laws/Links.lean ====
section
/-! SUPPORT. What the beginning of a frame and a byte exchange of Link A do to a link, and what they leave alone; the gang
of a lane. -/

namespace Sys2Proof.Machine

/-! ## The beginning of a frame -/

/-- A link with an outbound frame begins none. -/
theorem Link.begun_of_outbound {l : Link} (h : l.outbound ≠ none) : l.begun = l := by
  unfold Link.begun
  split
  · contradiction
  · rfl

/-- The beginning of a frame touches the reply queue, the notice queue and the outbound frame only. -/
theorem Link.begun_keeps (l : Link) :
    l.begun.parser = l.parser ∧ l.begun.buffer = l.buffer ∧ l.begun.intake = l.intake ∧ l.begun.sync = l.sync ∧
      l.begun.dropped = l.dropped ∧ l.begun.seq = l.seq := by
  unfold Link.begun Link.nextFrame
  split
  · rename_i h
    split at h
    · cases h
      exact ⟨rfl, rfl, rfl, rfl, rfl, rfl⟩
    · split at h
      · cases h
        exact ⟨rfl, rfl, rfl, rfl, rfl, rfl⟩
      · cases h
  · exact ⟨rfl, rfl, rfl, rfl, rfl, rfl⟩

/-! ## A byte exchange -/

/-- A byte exchange leaves the inbound side of the link alone. -/
theorem Link.exchanged_keeps (l : Link) :
    l.exchanged.parser = l.parser ∧ l.exchanged.buffer = l.buffer ∧ l.exchanged.intake = l.intake ∧
      l.exchanged.sync = l.sync ∧ l.exchanged.dropped = l.dropped ∧ l.exchanged.seq = l.seq :=
  l.begun_keeps

/-- After a byte exchange an outbound frame has a byte not yet sent. -/
theorem Link.exchanged_outbound (l : Link) : ∀ o ∈ l.exchanged.outbound, o.sent < o.frame.length := by
  intro o h
  obtain ⟨p, _, hp⟩ := Option.bind_eq_some_iff.mp h
  unfold Outbound.sendOne at hp
  split at hp
  · rename_i hlt
    cases hp
    exact hlt
  · cases hp

/-- A byte exchange changes Link A, its SSEL and its SDO; one of Link B changes nothing. -/
theorem State.exchange_only (s : State) (x : LinkId) :
    ∃ (ssel : Bool) (sdo : Option Byte) (l : Link), s.exchange x = { s with ssel := ssel, sdo := sdo, linkA := l } := by
  cases x
  · unfold State.exchange
    cases h : s.mode <;> exact ⟨_, _, _, rfl⟩
  · exact ⟨s.ssel, s.sdo, s.linkA, rfl⟩

/-! ## The gang of a lane -/

/-- A free lane belongs to no gang. -/
theorem State.gangOfLane_free {s : State} {i : LaneId} (h : s.lanes[i].gang = none) : s.gangOfLane i = none := by
  rw [State.gangOfLane, h]
  rfl

/-- A lane of a formed gang belongs to it. -/
theorem State.gangOfLane_of {s : State} {i : LaneId} {g : GangId} {G : Gang} (h : s.lanes[i].gang = some g)
    (hG : s.gang g = some G) : s.gangOfLane i = some (g, G) := by
  rw [State.gangOfLane, h, Option.bind_some, show s.gangs[g] = some G from hG]
  rfl

end Sys2Proof.Machine
end

