-- ==== Sys2Proof/Laws/Requests.lean ====
section
/-! SUPPORT. What the shared operations of the links do: taking a request and answering it, queueing a notice, and
answering a pending SYNC. -/

namespace Sys2Proof.Machine

/-! ## The moment of taking -/

theorem State.ready_of {s : State} (h : s.mode = .ready) : s.ready = true := by simp [State.ready, h]

theorem State.Takes.canTake {s : State} {x : LinkId} {r : Request} {rest : List Request} (h : s.Takes x r rest) :
    s.CanTake x := by
  obtain ⟨h1, h2, h3, h4⟩ := h
  exact ⟨h1, by simp [h2], h3, h4⟩

/-- A request row of the right kind removes the request from the intake and acts. -/
theorem State.take_eq {s : State} {x : LinkId} {r : Request} {rest : List Request} (h : s.Takes x r rest)
    {wanted : Request → Bool} (hw : wanted r = true) (act : Request → State → State) :
    s.take x wanted act = act r (s.popped x rest) := by
  obtain ⟨h1, h2, h3, h4⟩ := h
  simp [State.take, State.ready, h1, h2, h3, hw, replyCap, h4, State.modLink, State.popped]

/-- A row that does not name the request at the head of the intake does nothing. -/
theorem State.take_other {s : State} {x : LinkId} {r : Request} {rest : List Request} (h : s.Takes x r rest)
    {wanted : Request → Bool} (hw : wanted r = false) (act : Request → State → State) : s.take x wanted act = s := by
  simp [State.take, h.2.1, hw]

/-- A link that cannot take a request takes none. -/
theorem State.take_none {s : State} {x : LinkId} (h : ¬ s.CanTake x) (wanted : Request → Bool)
    (act : Request → State → State) : s.take x wanted act = s := by
  unfold State.take
  split
  · rename_i hr
    split
    · rfl
    · rename_i r rest hi
      rw [if_neg]
      intro hc
      simp only [Bool.and_eq_true, decide_eq_true_eq, Option.isNone_iff_eq_none] at hc
      exact h ⟨by simpa [State.ready] using hr, by simp [hi], hc.1.2, hc.2⟩
  · rfl

/-- A request whose length is permitted is answered by its rule. -/
theorem State.serve_eq {s : State} {x : LinkId} {r : Request} {rest : List Request} (h : s.Takes x r rest)
    {code : Byte} (hc : r.code = code) {lengthOk : List Byte → Bool} (hl : lengthOk r.payload = true)
    (rule : List Byte → State → Answer) :
    s.serve x code lengthOk rule = answer x r (s.popped x rest) (rule r.payload (s.popped x rest)) := by
  unfold State.serve
  rw [State.take_eq h (by simp [hc])]
  simp [hl]

/-! ## Answers -/

/-- A refusal queues the status byte alone and changes nothing else. -/
theorem answer_refuse (s : State) (x : LinkId) (r : Request) (rest : List Request) (st : Status) :
    answer x r (s.popped x rest) (.refuse st) = s.answered x r rest [st.code] := by
  simp [answer, State.popped, State.pushReply, State.modLink, State.answered]

/-- An OK answer that changes nothing. -/
theorem answer_ok_same (s : State) (x : LinkId) (r : Request) (rest : List Request) (fields : List Byte) :
    answer x r (s.popped x rest) (.ok fields (s.popped x rest)) = s.answered x r rest (statusOk :: fields) := by
  simp [answer, State.popped, State.pushReply, State.modLink, State.answered]

/-- A request whose length is not permitted is refused BAD_LENGTH. -/
theorem State.serve_badLength {s : State} {x : LinkId} {r : Request} {rest : List Request} (h : s.Takes x r rest)
    {code : Byte} (hc : r.code = code) {lengthOk : List Byte → Bool} (hl : lengthOk r.payload = false)
    (rule : List Byte → State → Answer) : s.serve x code lengthOk rule = s.answered x r rest [Status.badLength.code] := by
  unfold State.serve
  rw [State.take_eq h (by simp [hc])]
  simp [hl, answer_refuse]

/-! ## What taking leaves of the rest of the state -/

@[simp] theorem State.popped_gang (s : State) (x : LinkId) (rest : List Request) (g : GangId) :
    (s.popped x rest).gang g = s.gang g := by
  simp [State.gang, State.popped]

@[simp] theorem State.popped_block (s : State) (x : LinkId) (rest : List Request) (i : SlotId) :
    (s.popped x rest).block i = s.block i := by
  simp [State.block, State.popped]

@[simp] theorem State.popped_resolve (s : State) (x : LinkId) (rest : List Request) (slot : Nat) (gen : Byte) :
    (s.popped x rest).resolve slot gen = s.resolve slot gen := by
  simp [State.resolve, State.popped]

@[simp] theorem State.popped_gangAt (s : State) (x : LinkId) (rest : List Request) (n : Nat) :
    (s.popped x rest).gangAt n = s.gangAt n := by
  simp [State.gangAt]

@[simp] theorem State.popped_heldOff (s : State) (x : LinkId) (rest : List Request) (G : Gang) :
    (s.popped x rest).heldOff G = s.heldOff G := by
  simp [State.heldOff, State.popped]

@[simp] theorem State.popped_blocks (s : State) (x : LinkId) (rest : List Request) :
    (s.popped x rest).blocks = s.blocks := by
  simp [State.blocks]

@[simp] theorem State.popped_liveJobs (s : State) (x : LinkId) (rest : List Request) :
    (s.popped x rest).liveJobs = s.liveJobs := by
  simp [State.liveJobs, State.formed]

@[simp] theorem State.popped_formed (s : State) (x : LinkId) (rest : List Request) :
    (s.popped x rest).formed = s.formed := by
  simp [State.formed]

/-! ## Notices -/

/-- A notice joins the tail of a queue that has room, under the link's sequence and dropped count. -/
theorem State.notify_room {s : State} {x : LinkId} (h : (s.link x).notices.length < noticeCap) (body : NoticeBody) :
    s.notify x body =
      s.setLink x
        { s.link x with
          notices := (s.link x).notices ++ [⟨(s.link x).seq, (s.link x).dropped, body⟩]
          seq := (s.link x).seq + 1#8
          dropped := 0 } := by
  simp [State.notify, State.modLink, h]

/-- A notice that finds the queue full is discarded and counted. -/
theorem State.notify_full {s : State} {x : LinkId} (h : ¬(s.link x).notices.length < noticeCap) (body : NoticeBody) :
    s.notify x body = s.setLink x { s.link x with dropped := min 255 ((s.link x).dropped + 1) } := by
  simp [State.notify, State.modLink, h]

/-- A notice changes its own link only. -/
theorem State.notify_link_ne (s : State) {x y : LinkId} (body : NoticeBody) (h : y ≠ x) :
    (s.notify x body).link y = s.link y := by
  simp [State.notify, State.modLink, State.setLink_link_ne s _ h]

@[simp] theorem State.notify_gangs (s : State) (x : LinkId) (body : NoticeBody) : (s.notify x body).gangs = s.gangs := by
  simp [State.notify, State.modLink]

@[simp] theorem State.notify_dir (s : State) (x : LinkId) (body : NoticeBody) : (s.notify x body).dir = s.dir := by
  simp [State.notify, State.modLink]

@[simp] theorem State.notify_store (s : State) (x : LinkId) (body : NoticeBody) : (s.notify x body).store = s.store := by
  simp [State.notify, State.modLink]

@[simp] theorem State.notify_lanes (s : State) (x : LinkId) (body : NoticeBody) : (s.notify x body).lanes = s.lanes := by
  simp [State.notify, State.modLink]

@[simp] theorem State.notify_pins (s : State) (x : LinkId) (body : NoticeBody) : (s.notify x body).pins = s.pins := by
  simp [State.notify, State.modLink]

@[simp] theorem State.notify_free (s : State) (x : LinkId) (body : NoticeBody) : (s.notify x body).free = s.free := by
  simp [State.notify, State.modLink]

@[simp] theorem State.notify_pack (s : State) (x : LinkId) (body : NoticeBody) : (s.notify x body).pack = s.pack := by
  simp [State.notify, State.modLink]

@[simp] theorem State.notify_mode (s : State) (x : LinkId) (body : NoticeBody) : (s.notify x body).mode = s.mode := by
  simp [State.notify, State.modLink]

@[simp] theorem State.notify_nextId (s : State) (x : LinkId) (body : NoticeBody) : (s.notify x body).nextId = s.nextId := by
  simp [State.notify, State.modLink]

@[simp] theorem State.notify_pending (s : State) (x : LinkId) (body : NoticeBody) :
    (s.notify x body).pending = s.pending := by
  simp [State.notify, State.modLink]

/-! ## SYNC -/

/-- A pending SYNC is answered in the place of its reservation. -/
theorem State.resolveSync_eq {s : State} {x : LinkId} {p : PendingSync} (h : (s.link x).sync = some p)
    (payload : List Byte) :
    s.resolveSync x payload =
      s.setLink x
        { s.link x with
          sync := none
          replies := replaceReservation ⟨p.tag, Code.sync, payload⟩ (s.link x).replies } := by
  simp [State.resolveSync, h, State.modLink]

/-- Without a pending SYNC nothing is answered. -/
theorem State.resolveSync_none {s : State} {x : LinkId} (h : (s.link x).sync = none) (payload : List Byte) :
    s.resolveSync x payload = s := by
  simp [State.resolveSync, h]

/-- A list of entries that holds no reservation is left as it is. -/
theorem replaceReservation_of_not_mem (r : Reply) {l : List ReplyEntry} (h : .reservation ∉ l) :
    replaceReservation r l = l := by
  induction l with
  | nil => rfl
  | cons e l ih =>
    cases e with
    | reply q => simpa [replaceReservation] using ih (by simp_all)
    | reservation => simp at h

/-- Answering a SYNC keeps the length of the reply queue. -/
@[simp] theorem replaceReservation_length (r : Reply) (l : List ReplyEntry) :
    (replaceReservation r l).length = l.length := by
  simp [replaceReservation]

/-- No reservation is left. -/
theorem replaceReservation_count (r : Reply) (l : List ReplyEntry) :
    (replaceReservation r l).count .reservation = 0 := by
  rw [List.count_eq_zero]
  intro h
  obtain ⟨e, -, he⟩ := List.mem_map.1 h
  cases e <;> simp at he

end Sys2Proof.Machine
end

