-- ==== Sys2Proof/Laws/Store.lean ====
section
/-! SUPPORT. The store bytes: every operation keeps the canonical form of the cell list (`Mem.wf`), and what a read of
one byte gives after each. -/

namespace Sys2Proof.Machine

/-! ## Cells -/

theorem Mem.nil_wf : Mem.wf [] := ⟨List.Pairwise.nil, by simp⟩

/-- Every cell lies at `a` .. `a + n - 1`. -/
abbrev Mem.within (m : Mem) (a n : Nat) : Prop := ∀ c ∈ m, a ≤ c.1 ∧ c.1 < a + n

theorem lookup_filter_key (p : Nat → Bool) (a : Nat) (m : Mem) :
    List.lookup a (m.filter fun c => p c.1) = if p a then List.lookup a m else none := by
  induction m with
  | nil => simp
  | cons c cs ih =>
    obtain ⟨k, v⟩ := c
    by_cases hk : a = k
    · subst hk
      by_cases hp : p a <;> simp [hp, ih]
    · have hka : (a == k) = false := by simpa using hk
      by_cases hp : p k <;> simp [hp, ih, List.lookup_cons, hka]

theorem lookup_eq_none_of_absent {a : Nat} {m : Mem} (h : ∀ c ∈ m, c.1 ≠ a) : List.lookup a m = none := by
  induction m with
  | nil => rfl
  | cons c cs ih =>
    obtain ⟨k, v⟩ := c
    have hc : (a == k) = false := by simpa using fun e : a = k => h (k, v) (by simp) e.symm
    simp only [List.lookup, hc]
    exact ih fun d hd => h d (by simp [hd])

/-- What a spliced list lists at `k`: the new cells inside the run, the old ones outside. -/
theorem lookup_splice {m cells : Mem} {a n : Nat} (h : cells.within a n) (k : Nat) :
    List.lookup k (m.splice a n cells) =
      if a ≤ k ∧ k < a + n then List.lookup k cells else List.lookup k m := by
  have e1 := lookup_filter_key (fun i => decide (i < a)) k m
  have e2 := lookup_filter_key (fun i => decide (a + n ≤ i)) k m
  simp only [Mem.splice, List.lookup_append, e1, e2]
  by_cases hin : a ≤ k ∧ k < a + n
  · simp [hin, Nat.not_lt.2 hin.1, Nat.not_le.2 hin.2]
  · have hc : List.lookup k cells = none := lookup_eq_none_of_absent fun c hc e => hin (e ▸ h c hc)
    rw [if_neg hin, hc]
    by_cases hlo : k < a
    · have : ¬ a + n ≤ k := by omega
      simp [hlo, this]
    · have : a + n ≤ k := by omega
      simp [hlo, this]

/-- A read outside the run gives what it gave. -/
theorem Mem.get_splice_outside {m cells : Mem} {a n k : Nat} (h : cells.within a n) (hk : k < a ∨ a + n ≤ k) :
    (m.splice a n cells).get k = m.get k := by
  have : ¬(a ≤ k ∧ k < a + n) := by omega
  simp [Mem.get, lookup_splice h, this]

/-- A read inside the run gives the new cell. -/
theorem Mem.get_splice_inside {m cells : Mem} {a n k : Nat} (h : cells.within a n) (hk : a ≤ k ∧ k < a + n)
    (hs : k < storeSize) : (m.splice a n cells).get k = (List.lookup k cells).getD 0x00#8 := by
  simp [Mem.get, lookup_splice h, hk, hs]

/-- A splice of canonical cells keeps the canonical form. -/
theorem Mem.splice_wf {m cells : Mem} {a n : Nat} (hm : m.wf) (hc : cells.wf) (h : cells.within a n) :
    (m.splice a n cells).wf := by
  refine ⟨?_, ?_⟩
  · unfold Mem.splice
    refine List.pairwise_append.2 ⟨List.pairwise_append.2 ⟨hm.1.filter _, hc.1, ?_⟩, hm.1.filter _, ?_⟩
    · intro c hcm d hd
      have h1 := (List.mem_filter.1 hcm).2
      have h2 := h d hd
      simp only [decide_eq_true_eq] at h1
      omega
    · intro c hcm d hd
      have h3 := (List.mem_filter.1 hd).2
      simp only [decide_eq_true_eq] at h3
      rcases List.mem_append.1 hcm with h1 | h1
      · have h2 := (List.mem_filter.1 h1).2
        simp only [decide_eq_true_eq] at h2
        omega
      · have h2 := h c h1
        omega
  · intro c hcm
    rcases List.mem_append.1 hcm with h1 | h1
    · rcases List.mem_append.1 h1 with h2 | h2
      · exact hm.2 c (List.mem_filter.1 h2).1
      · exact hc.2 c h2
    · exact hm.2 c (List.mem_filter.1 h1).1

/-! ## Writing a run of bytes -/

theorem cellsOf_within (bs : List Byte) (a : Nat) : (cellsOf a bs).within a bs.length := by
  induction bs generalizing a with
  | nil => simp [cellsOf]
  | cons b bs ih =>
    intro c hc
    unfold cellsOf at hc
    simp only [List.length_cons]
    split at hc
    · have := ih (a + 1) c hc
      omega
    · rcases List.mem_cons.1 hc with rfl | hc
      · simp
      · have := ih (a + 1) c hc
        omega

theorem cellsOf_wf (bs : List Byte) (a : Nat) : (cellsOf a bs).wf := by
  induction bs generalizing a with
  | nil => exact Mem.nil_wf
  | cons b bs ih =>
    unfold cellsOf
    split
    · exact ih (a + 1)
    · rename_i hb
      simp only [not_or, Nat.not_le] at hb
      refine ⟨List.pairwise_cons.2 ⟨fun d hd => ?_, (ih (a + 1)).1⟩, fun c hc => ?_⟩
      · have := cellsOf_within bs (a + 1) d hd
        simp only
        omega
      · rcases List.mem_cons.1 hc with rfl | hc
        · exact hb
        · exact (ih (a + 1)).2 c hc

theorem lookup_cellsOf (bs : List Byte) (a k : Nat) (hk : a ≤ k) (hs : k < storeSize) :
    (List.lookup k (cellsOf a bs)).getD 0x00#8 = bs.getD (k - a) 0x00#8 := by
  induction bs generalizing a with
  | nil => simp [cellsOf]
  | cons b bs ih =>
    by_cases he : k = a
    · subst he
      have hn : List.lookup k (cellsOf (k + 1) bs) = none :=
        lookup_eq_none_of_absent fun c hc e => by have := cellsOf_within bs (k + 1) c hc; omega
      unfold cellsOf
      split
      · rename_i hb
        rcases hb with hb | hb
        · simp [hn, hb]
        · omega
      · simp
    · have h1 : a + 1 ≤ k := by omega
      have h2 : k - a = (k - (a + 1)) + 1 := by omega
      have hne : (k == a) = false := by simpa using he
      rw [h2, List.getD_cons_succ, ← ih (a + 1) h1, cellsOf]
      split
      · rfl
      · simp only [List.lookup, hne]

/-- A write of a run of bytes keeps the canonical form. -/
theorem Mem.setBytes_wf {m : Mem} (hm : m.wf) (a : Nat) (bs : List Byte) : (m.setBytes a bs).wf :=
  Mem.splice_wf hm (cellsOf_wf bs a) (cellsOf_within bs a)

/-- After a write, byte `k` of the run is read back. -/
theorem Mem.get_setBytes_inside (m : Mem) (a : Nat) (bs : List Byte) {k : Nat} (hk : a ≤ k ∧ k < a + bs.length)
    (hs : k < storeSize) : (m.setBytes a bs).get k = bs.getD (k - a) 0x00#8 := by
  rw [Mem.setBytes, Mem.get_splice_inside (cellsOf_within bs a) hk hs, lookup_cellsOf bs a k hk.1 hs]

/-- A write leaves every other byte. -/
theorem Mem.get_setBytes_outside (m : Mem) (a : Nat) (bs : List Byte) {k : Nat} (hk : k < a ∨ a + bs.length ≤ k) :
    (m.setBytes a bs).get k = m.get k :=
  Mem.get_splice_outside (cellsOf_within bs a) hk

/-! ## Setting a run to one value -/

/-- The cells of a filled run. -/
theorem fillCells_spec (a n : Nat) (b : Byte) :
    let cells : Mem :=
      if b = 0x00#8 then [] else ((List.range' a n).filter fun i => decide (i < storeSize)).map fun i => (i, b)
    cells.wf ∧ cells.within a n ∧
      ∀ k, a ≤ k → k < a + n → k < storeSize → (List.lookup k cells).getD 0x00#8 = b := by
  intro cells
  by_cases hb : b = 0x00#8
  · have hcells : cells = [] := if_pos hb
    rw [hcells]
    exact ⟨Mem.nil_wf, by simp, by simp [hb]⟩
  · have hcells : cells = ((List.range' a n).filter fun i => decide (i < storeSize)).map fun i => (i, b) := if_neg hb
    rw [hcells]
    refine ⟨⟨?_, ?_⟩, ?_, ?_⟩
    · exact List.pairwise_map.2 ((List.pairwise_lt_range' (s := a) (n := n)).filter _)
    · intro c hc
      obtain ⟨i, hi, rfl⟩ := List.mem_map.1 hc
      exact ⟨hb, by simpa using (List.mem_filter.1 hi).2⟩
    · intro c hc
      obtain ⟨i, hi, rfl⟩ := List.mem_map.1 hc
      have := List.mem_range'_1.1 (List.mem_filter.1 hi).1
      simpa using this
    · intro k h1 h2 h3
      have hmem : k ∈ (List.range' a n).filter fun i => decide (i < storeSize) :=
        List.mem_filter.2 ⟨List.mem_range'_1.2 ⟨h1, h2⟩, by simpa using h3⟩
      generalize (List.range' a n).filter (fun i => decide (i < storeSize)) = l at hmem
      induction l with
      | nil => cases hmem
      | cons i is ih =>
        by_cases he : k = i
        · simp [he]
        · have hne : (k == i) = false := by simpa using he
          have hm : k ∈ is := (List.mem_cons.1 hmem).resolve_left he
          simpa [List.lookup_cons, hne] using ih hm

/-- A fill keeps the canonical form. -/
theorem Mem.fill_wf {m : Mem} (hm : m.wf) (a n : Nat) (b : Byte) : (m.fill a n b).wf :=
  Mem.splice_wf hm (fillCells_spec a n b).1 (fillCells_spec a n b).2.1

/-- After a fill every byte of the run is the fill byte. -/
theorem Mem.get_fill_inside (m : Mem) (a n : Nat) (b : Byte) {k : Nat} (hk : a ≤ k ∧ k < a + n) (hs : k < storeSize) :
    (m.fill a n b).get k = b := by
  rw [Mem.fill, Mem.get_splice_inside (fillCells_spec a n b).2.1 hk hs]
  exact (fillCells_spec a n b).2.2 k hk.1 hk.2 hs

/-- A fill leaves every other byte. -/
theorem Mem.get_fill_outside (m : Mem) (a n : Nat) (b : Byte) {k : Nat} (hk : k < a ∨ a + n ≤ k) :
    (m.fill a n b).get k = m.get k :=
  Mem.get_splice_outside (fillCells_spec a n b).2.1 hk

/-! ## Copying a run -/

/-- The cells of a copied run. -/
abbrev copyCells (m : Mem) (src dst n : Nat) : Mem :=
  ((m.filter fun c => decide (src ≤ c.1 ∧ c.1 < src + n)).map fun c => (c.1 - src + dst, c.2)).filter
    fun c => decide (c.1 < storeSize)

theorem copyCells_within (m : Mem) (src dst n : Nat) : (copyCells m src dst n).within dst n := by
  intro c hc
  obtain ⟨d, hd, rfl⟩ := List.mem_map.1 (List.mem_filter.1 hc).1
  have := (List.mem_filter.1 hd).2
  simp only [decide_eq_true_eq] at this
  simp only
  omega

theorem copyCells_wf {m : Mem} (hm : m.wf) (src dst n : Nat) : (copyCells m src dst n).wf := by
  refine ⟨?_, ?_⟩
  · refine List.Pairwise.filter _ (List.pairwise_map.2 ?_)
    refine (hm.1.filter fun c => decide (src ≤ c.1 ∧ c.1 < src + n)).imp_of_mem ?_
    intro c d hc hd hlt
    have h1 := (List.mem_filter.1 hc).2
    simp only [decide_eq_true_eq] at h1
    simp only
    omega
  · intro c hc
    have hs := (List.mem_filter.1 hc).2
    obtain ⟨d, hd, rfl⟩ := List.mem_map.1 (List.mem_filter.1 hc).1
    exact ⟨(hm.2 d (List.mem_filter.1 hd).1).1, by simpa using hs⟩

theorem lookup_copyCells (m : Mem) (src dst n k : Nat) (hk : k < n) (hs : dst + k < storeSize) :
    List.lookup (dst + k) (copyCells m src dst n) = List.lookup (src + k) m := by
  induction m with
  | nil => rfl
  | cons c cs ih =>
    obtain ⟨p, v⟩ := c
    by_cases he : src + k = p
    · have h1 : src ≤ p ∧ p < src + n := by omega
      have h2 : p - src + dst = dst + k := by omega
      simp [copyCells, h1, h2, hs, he]
    · have hne : (src + k == p) = false := by simpa using he
      have hgoal : List.lookup (src + k) ((p, v) :: cs) = List.lookup (src + k) cs := by
        simp [List.lookup_cons, hne]
      rw [hgoal, ← ih]
      by_cases h1 : src ≤ p ∧ p < src + n
      · by_cases h3 : p - src + dst < storeSize
        · have h2 : (dst + k == p - src + dst) = false := by
            simp only [beq_eq_false_iff_ne, ne_eq]
            omega
          simp [copyCells, h1, h3, List.lookup_cons, h2]
        · simp [copyCells, h1, h3]
      · simp [copyCells, h1]

/-- A copy keeps the canonical form. -/
theorem Mem.copy_wf {m : Mem} (hm : m.wf) (src dst n : Nat) : (m.copy src dst n).wf :=
  Mem.splice_wf hm (copyCells_wf hm src dst n) (copyCells_within m src dst n)

/-- After a copy, byte `k` of the destination is what byte `k` of the source was, also where the two runs overlap. -/
theorem Mem.get_copy_inside (m : Mem) (src dst n : Nat) {k : Nat} (hk : k < n) (hd : dst + k < storeSize)
    (hs : src + k < storeSize) : (m.copy src dst n).get (dst + k) = m.get (src + k) := by
  have e : m.copy src dst n = m.splice dst n (copyCells m src dst n) := rfl
  rw [e, Mem.get_splice_inside (copyCells_within m src dst n) (by omega) hd, lookup_copyCells m src dst n k hk hd]
  simp [Mem.get, hs]

/-- A copy leaves every byte outside the destination. -/
theorem Mem.get_copy_outside (m : Mem) (src dst n : Nat) {k : Nat} (hk : k < dst ∨ dst + n ≤ k) :
    (m.copy src dst n).get k = m.get k :=
  Mem.get_splice_outside (copyCells_within m src dst n) hk

/-! ## Reading a run, and reset -/

@[simp] theorem Mem.bytes_length (m : Mem) (a n : Nat) : (m.bytes a n).length = n := by simp [Mem.bytes]

/-- The store of the part right after reset lists nothing. -/
theorem State.reset_store_wf : State.reset.store.wf := Mem.nil_wf

end Sys2Proof.Machine
end

