-- ==== Sys2Proof/WellFormed.lean ====
section
/-! DEFINITION. What a command's operands must satisfy beyond their types. -/

namespace Sys2Proof

/-- A board byte is in its one written form: a line the board does not drive has level bit 0. -/
def BoardByte.wf (b : BoardByte) : Bool := b.level &&& ~~~b.driven == 0#8

/-- Every lane's board byte is in its written form. -/
def Board.wf (board : Board) : Bool := board.toList.all BoardByte.wf

/-- The operands a row can carry: an oversize length is above 232 (R144), and board levels are in their
written form. Every other operand is bounded by its type. -/
def Instr.wf : Instr → Bool
  | .hello _ | .summary _ | .restartEngine _ | .restartAll _ _ | .detach _ | .sync _ => true
  | .define _ | .delete _ | .lookup _ | .describe _ | .catalog _ | .storeMap _ => true
  | .write _ | .read _ | .fill _ | .pack _ | .stopPack _ => true
  | .form _ | .dissolve _ | .configure _ | .timing _ | .gangStatus _ | .setLines _ => true
  | .getLines _ board => Board.wf board
  | .setControl _ => true
  | .submit _ | .cancel _ | .halt _ | .pause _ | .resume _ | .jobStatus _ => true
  | .unknownRequest _ => true
  | .frameReceived _ _ => true
  | .lengthOversize _ byte => decide (232 < byte.toNat)
  | .gapTimerExpiry | .sselDeasserted => true
  | .transmitBegin _ | .transmitEnd _ => true
  | .breakDetected => true
  | .syncTimerExpiry _ => true
  | .powerOn _ | .powerOff | .resetnAsserted _ | .resetnReleased _ | .startupEnd => true
  | .flgChange _ _ board => Board.wf board
  | .holdChange _ _ => true
  | .settleEnd _ board => Board.wf board
  | .pulseEnd _ | .periodEnd _ | .beatTimerExpiry _ => true
  | .packVisit | .moveCompletion => true
  | .byteReceived _ _ => true
  | .breakEnd => true

end Sys2Proof
end

