-- ==== Sys2Proof/Tests/Slice0.lean ====
section
/-! SUPPORT. Tests: the refused ill-formed terms, single steps on small states, and for each statement a state and
operands that meet its hypotheses. -/

namespace Sys2Proof.Tests

open Sys2Proof Sys2Proof.Machine

/-! ## Small states -/

/-- The part once its start-up has ended, with nothing queued. -/
def ready : State := { State.reset with mode := .ready, started := true }

/-- The request of tag 0x51. -/
def req (code : Byte) (payload : List Byte) : Request := ⟨0x51#8, code, payload⟩

/-- A state in which link `x` is about to take one request. -/
def ask (s : State) (x : LinkId) (code : Byte) (payload : List Byte) : State :=
  s.setLink x { s.link x with intake := [req code payload] }

/-- The payload of the newest reply of a link. -/
def replied (s : State) (x : LinkId) : List Byte :=
  match (s.link x).replies.getLast? with
  | some (.reply r) => r.payload
  | _ => []

/-- A block of four bytes at base 0. -/
def blockB : Block := { newBlock [0x42#8] 4 0 with refs := 1 }

/-- A job of two beats on that block. -/
def job (dir : Direction) : Job :=
  { id := 1, dir := dir, slot := 0, gen := 1#8, offset := 0, beats := 2, repeats := 1, afterOk := false, quiet := false,
    state := .running }

/-- A gang of Link A on lanes 0 and 1. -/
def gangIn (m : Mode) (queue : List Job) (beat : Option Beat) : Gang :=
  { newGang .a 0 2 false with cfg := { GangConfig.init with mode := m }, queue := queue, beat := beat }

/-- The part with that block in slot 0, with bytes 0x11 and 0x22, and that gang in slot 0. -/
def world (G : Gang) (b : Block) : State :=
  { ready with
    store := [(0, 0x11#8), (1, 0x22#8)]
    dir := ready.dir.set 0 ⟨1#8, some b⟩
    free := [⟨1, 2047⟩]
    gangs := ready.gangs.set 0 (some G)
    lanes := (ready.lanes.set 0 ⟨some 0, 0x00#8, false⟩).set 1 ⟨some 0, 0x00#8, false⟩ }

/-- The same with a job at work. -/
def busy (m : Mode) (dir : Direction) (B : Beat) : State :=
  world (gangIn m [job dir] (some B)) { blockB with writer := if dir = .capture then some 0 else none }

/-- A beat in flight in a phase. -/
def inPhase (p : Phase) : Beat := { Beat.init with inFlight := true, phase := some p }

/-- The board drives a byte on lanes 0 and 1. -/
def boardOf (a b : Byte) : Board :=
  ((Vector.replicate 10 (⟨0#8, 0#8⟩ : BoardByte)).set 0 ⟨0xFF#8, a⟩).set 1 ⟨0xFF#8, b⟩

/-- The board drives nothing. -/
def calm : Board := Vector.replicate 10 ⟨0#8, 0#8⟩

/-- The state a command leaves. -/
def after (c : Instr) (s : State) : State := runAll [c] s

/-- A lane's latched byte and drivers. -/
def shown (s : State) (i : LaneId) : Byte × Bool := (s.lanes[i].latched, s.lanes[i].enabled)

/-! ## Well-formedness -/

theorem test_wf_refuses_a_level_on_an_undriven_line :
    BoardByte.wf ⟨0x0F#8, 0x10#8⟩ = false ∧ BoardByte.wf ⟨0x0F#8, 0x05#8⟩ = true := by decide

theorem test_wf_refuses_boards :
    (Instr.getLines .a (calm.set 9 ⟨0#8, 1#8⟩)).wf = false ∧ (Instr.flgChange 0 true (calm.set 0 ⟨0#8, 1#8⟩)).wf = false ∧
      (Instr.settleEnd 0 (calm.set 4 ⟨0#8, 1#8⟩)).wf = false ∧ (Instr.getLines .a calm).wf = true := by decide

theorem test_wf_refuses_a_length_that_is_not_oversize :
    (Instr.lengthOversize .a 232#8).wf = false ∧ (Instr.lengthOversize .a 233#8).wf = true := by decide

/-! ## Single steps -/

set_option maxRecDepth 4000 in
theorem test_check_word :
    crc16 [0x31#8, 0x32#8, 0x33#8, 0x34#8, 0x35#8, 0x36#8, 0x37#8, 0x38#8, 0x39#8] = 0x29B1#16 := by decide

theorem test_no_word_spells_a_command : decodeTableWord 8 0 = none ∧ State.reset.withFetchWord 8 0 = State.reset :=
  ⟨rfl, rfl⟩

theorem test_startup_end :
    let s := after .startupEnd State.reset
    s.mode = .ready ∧ s.linkA.notices = [⟨0#8, 0, .started .all .power⟩] ∧
      s.linkB.notices = [⟨0#8, 0, .started .all .power⟩] := by decide

set_option maxRecDepth 4000 in
theorem test_hello :
    replied (after (.hello .b) (ask ready .b 0x01#8 [])) .b =
      [0#8, 0x24#8, 0x10#8, 0x41#8, 1#8, 0x08#8, 0#8, 10#8, 8#8, 48#8, 6#8, 232#8] := by decide

set_option maxRecDepth 4000 in
theorem test_define :
    let s := after (.define .a) (ask ready .a 0x10#8 [1#8, 0x62#8, 0#8, 0#8, 0#8, 65#8, 0xAB#8])
    replied s .a = [0#8, 0#8, 1#8, 0#8, 0#8, 0#8, 2#8, 0x07#8, 0xFE#8, 0x07#8, 0xFE#8] ∧ s.free = [⟨2, 2046⟩] ∧
      (s.block 0).map Block.name = some [0x42#8] := by decide

theorem test_define_refused :
    replied (after (.define .a) (ask ready .a 0x10#8 [1#8, 0x31#8, 0#8, 0#8, 0#8, 65#8])) .a = [3#8] := by decide

theorem test_form :
    let s := after (.form .b) (ask ready .b 0x20#8 [8#8, 2#8])
    replied s .b = [0#8, 0#8, 8#8, 2#8] ∧ s.lanes[9].gang = some 0 ∧ s.lanes[7].gang = none := by decide

set_option maxRecDepth 4000 in
theorem test_write_then_bytes :
    let s := after (.write .a) (ask (world (gangIn .manual [] none) blockB) .a 0x16#8 [0#8, 1#8, 0#8, 0#8, 0#8, 2#8, 0x77#8])
    s.store = [(0, 0x11#8), (1, 0x22#8), (2, 0x77#8)] ∧ replied s .a = [0#8, 1#8] := by decide

set_option maxRecDepth 4000 in
theorem test_read :
    replied (after (.read .b) (ask (world (gangIn .manual [] none) blockB) .b 0x17#8 [0#8, 1#8, 0#8, 0#8, 0#8, 0#8, 3#8])) .b =
      [0#8, 0#8, 0#8, 0#8, 0#8, 3#8, 0x11#8, 0x22#8, 0x00#8] := by decide

set_option maxRecDepth 4000 in
theorem test_fill_with_zero_lists_nothing :
    (after (.fill .a) (ask (world (gangIn .manual [] none) blockB) .a 0x18#8
      [0#8, 1#8, 0#8, 0#8, 0#8, 0#8, 0#8, 0#8, 0#8, 4#8, 0#8])).store = [] := by decide

set_option maxRecDepth 4000 in
theorem test_set_lines_descending :
    let G := gangIn .manual [] none
    let s := after (.setLines .a) (ask (world { G with cfg := { G.cfg with manualOut := true, descending := true } } blockB) .a
      0x25#8 [0#8, 0x5A#8, 0xC3#8])
    shown s 0 = (0xC3#8, true) ∧ shown s 1 = (0x5A#8, true) ∧ replied s .a = [0#8, 1#8] := by decide

set_option maxRecDepth 8000 in
theorem test_submit_starts_a_lockstep_send :
    let s := after (.submit .a) (ask (world (gangIn .lockstep [] none) { blockB with refs := 0 }) .a 0x30#8
      [0#8, 0#8, 0#8, 1#8, 0#8, 0#8, 0#8, 0#8, 0#8, 0#8, 1#8, 0#8, 0#8])
    replied s .a = [0#8, 0#8, 1#8, 0#8, 2#8, 1#8] ∧ shown s 0 = (0x11#8, true) ∧ shown s 1 = (0x22#8, true) ∧
      ((s.gang 0).bind Gang.beat).map Beat.phase = some (some .settle) := by decide

set_option maxRecDepth 4000 in
theorem test_settle_end_offers_the_word :
    let s := after (.settleEnd 0 calm) (busy .lockstep .send (inPhase .settle))
    (s.gang 0).map Gang.ctl = some true ∧ ((s.gang 0).bind Gang.beat).map Beat.phase = some (some .waitTake) := by decide

set_option maxRecDepth 8000 in
theorem test_flg_completes_a_lockstep_send_beat :
    let s := after (.flgChange 0 true calm) (busy .lockstep .send (inPhase .waitTake))
    ((s.gang 0).bind Gang.beat).map (fun B => (B.done, B.index, B.phase)) = some (1, 1, some .waitReady) := by decide

set_option maxRecDepth 8000 in
theorem test_flg_strobe_samples :
    let s := after (.flgChange 0 true (boardOf 0x91#8 0x92#8)) (busy .strobed .capture (inPhase .waitStrobe))
    s.store = [(0, 0x91#8), (1, 0x92#8)] ∧ (s.gang 0).map Gang.ctl = some true := by decide

set_option maxRecDepth 8000 in
theorem test_second_strobe_is_an_overrun :
    let s := after (.flgChange 0 true calm) (busy .strobed .capture { inPhase .pulse with sampled := true, done := 1 })
    s.linkA.notices.map Notice.body = [.jobFault 1 0 .overrun .pulse 1] ∧ (s.gang 0).map Gang.queue = some [] := by decide

set_option maxRecDepth 8000 in
theorem test_hold_abandons_a_send_beat :
    let G := gangIn .clocked [job .send] (some { inPhase .pulse with periodTimer := .running 10000 })
    let s := after (.holdChange 1 false) (world { G with ctl := true, cfg := { G.cfg with holdOff := true } } blockB)
    (s.gang 0).map Gang.ctl = some false ∧
      ((s.gang 0).bind Gang.beat).map (fun B => (B.abandoned, B.phase, B.periodTimer)) =
        some (true, some .pulse, .stopped) := by decide

set_option maxRecDepth 8000 in
theorem test_pulse_end_goes_on_to_period :
    let s := after (.pulseEnd 0) (busy .clocked .send { inPhase .pulse with periodTimer := .running 10000 })
    ((s.gang 0).bind Gang.beat).map Beat.phase = some (some .period) := by decide

set_option maxRecDepth 8000 in
theorem test_period_end_begins_the_next_beat :
    let s := after (.periodEnd 0) (busy .clocked .send { inPhase .period with periodTimer := .running 10000 })
    ((s.gang 0).bind Gang.beat).map (fun B => (B.done, B.phase)) = some (1, some .settle) := by decide

set_option maxRecDepth 8000 in
theorem test_beat_timer_expiry :
    let s := after (.beatTimerExpiry 0) (busy .lockstep .send { inPhase .waitTake with beatTimer := .running 1000 })
    s.linkA.notices.map Notice.body = [.jobFault 1 0 .flagTimeout .waitTake 0] ∧
      (s.gang 0).map Gang.last = some .faulted := by decide

set_option maxRecDepth 8000 in
theorem test_watch_reports_and_coalesces :
    let G := gangIn .manual [] none
    let s := world { G with cfg := { G.cfg with watch := true } } blockB
    (runAll [.flgChange 0 true calm, .flgChange 0 false calm] s).linkA.notices.map Notice.body =
      [.flagEdge 0 false 2 true] := by decide

theorem test_sync_times_out :
    let s := after (.syncTimerExpiry .b)
      (ready.setLink .b { Link.init with sync := some ⟨0x51#8, 0, .running 5⟩, replies := [.reservation] })
    s.linkB.sync = none ∧ s.linkB.replies = [.reply ⟨0x51#8, 0x05#8, [26#8, 0#8]⟩] := by decide

theorem test_gap_timer_truncates :
    let s := after .gapTimerExpiry
      { ready with linkB := { Link.init with parser := .header, buffer := [0xA7#8] }, gap := .running 10 }
    s.linkB.parser = .hunting ∧ s.linkB.notices.map Notice.body = [.linkFault .truncated] := by decide

theorem test_transmit_begin_skips_the_reservation :
    let s := after (.transmitBegin .a)
      (ready.setLink .a { Link.init with
        sync := some ⟨1#8, 0, .running 5⟩, replies := [.reservation], notices := [⟨0#8, 0, .linkFault .kind⟩] })
    s.linkA.replies = [.reservation] ∧ s.linkA.notices = [] ∧ s.linkA.outbound.isSome = true := by decide

/-- Link A with one LINK_FAULT notice waiting, whose frame has nine bytes. -/
def noticing : State := ready.setLink .a { Link.init with notices := [⟨0#8, 0, .linkFault .kind⟩] }

set_option maxRecDepth 8000 in
theorem test_an_exchange_begins_the_waiting_frame :
    let s := after (.byteReceived .a 0#8) noticing
    noticing.attn = true ∧ noticing.sdo = none ∧ s.sdo = some 0xA7#8 ∧ s.linkA.notices = [] ∧ s.attn = true ∧
      (runAll [.sselDeasserted, .byteReceived .a 0#8] s).sdo = some 3#8 ∧ (after .sselDeasserted s).sdo = none := by decide

set_option maxRecDepth 8000 in
theorem test_the_last_byte_ends_the_outbound_frame :
    let o : Outbound := ⟨[1#8, 2#8], 1⟩
    let s := after (.byteReceived .a 0#8) (ready.setLink .a { Link.init with outbound := some o })
    s.sdo = some 2#8 ∧ s.linkA.outbound = none ∧ s.attn = false ∧ (after (.byteReceived .a 0#8) s).sdo = some 0#8 := by decide

theorem test_start_up_returns_fill : (after (.byteReceived .a 0xA7#8) State.reset).sdo = some 0#8 := by decide

theorem test_pins_of_a_free_lane :
    let s := (world (gangIn .manual [] none) blockB).senseBoard (boardOf 0#8 0#8)
    s.gangOfLane 9 = none ∧ s.ctlPin 9 = false ∧ s.actPin 9 = false ∧ s.lanePins 0 = 0#8 := by decide

set_option maxRecDepth 8000 in
theorem test_visit_begins_a_move :
    let s := after .packVisit
      { world (gangIn .manual [] none) { blockB with base := 4 } with
        free := [⟨0, 4⟩, ⟨5, 2043⟩], pack := { Pack.init with state := .running, link := some .b } }
    s.pack.move = some ⟨0, 4, 0, 1⟩ ∧ s.free = [⟨5, 2043⟩] ∧ (s.block 0).map Block.dest = some (some 0) := by decide

set_option maxRecDepth 8000 in
theorem test_move_completion :
    let s := after .moveCompletion
      { world (gangIn .manual [] none) { blockB with base := 4, dest := some 0 } with
        store := [(256, 0x11#8)], free := [⟨5, 2043⟩]
        pack := { Pack.init with state := .running, link := some .b, move := some ⟨0, 4, 0, 1⟩ } }
    s.store = [(0, 0x11#8), (256, 0x11#8)] ∧ s.free = [⟨1, 2047⟩] ∧ s.pack.moves = 1 := by decide

set_option maxRecDepth 8000 in
theorem test_cancel_ends_the_active_job :
    let s := after (.cancel .a) (ask (busy .lockstep .send (inPhase .waitTake)) .a 0x31#8 [0#8, 1#8])
    replied s .a = [0#8, 0#8, 1#8, 0#8, 0#8, 0#8, 0#8] ∧ (s.gang 0).map Gang.last = some .cancelled ∧
      (s.block 0).map Block.refs = some 0 := by decide

set_option maxRecDepth 4000 in
theorem test_pause_waits_for_the_beat :
    let s := after (.pause .a) (ask (busy .lockstep .send (inPhase .waitTake)) .a 0x33#8 [0#8])
    replied s .a = [0#8, 1#8] ∧ (s.gang 0).map Gang.run = some .pausing := by decide

set_option maxRecDepth 8000 in
theorem test_detach_frees_the_gangs :
    let s := after (.detach .a) (ask (busy .lockstep .send (inPhase .waitTake)) .a 0x04#8 [])
    replied s .a = [0#8] ∧ (s.gang 0) = none ∧ s.lanes[1].gang = none ∧ (s.block 0).map Block.refs = some 0 := by decide

set_option maxRecDepth 8000 in
theorem test_gang_status_ends_with_beats_done :
    let s := ask (busy .lockstep .send { inPhase .waitTake with done := 3 }) .b 0x24#8 [0#8]
    (replied (after (.gangStatus .b) s) .b).drop 34 = [0#8, 1#8, 2#8, 0#8, 0#8, 0#8, 0#8, 0#8, 0#8, 0#8, 0#8, 3#8] := by decide

theorem test_names :
    nameWellFormed (foldName [0x7A#8, 0x2D#8, 0x5F#8, 0x39#8]) = true ∧ foldName [0x61#8, 0x7A#8, 0x60#8, 0x7B#8] =
      [0x41#8, 0x5A#8, 0x60#8, 0x7B#8] ∧ nameWellFormed [0x30#8] = false ∧ nameWellFormed [] = false ∧
      nameWellFormed (List.replicate 15 0x41#8) = true ∧ nameWellFormed (List.replicate 16 0x41#8) = false := by decide

/-! ## The hypotheses of the statements are met

First the two that most statements share: a link about to take a request, and an active job. -/

theorem ask_takes (x : LinkId) (code : Byte) (payload : List Byte) :
    (ask ready x code payload).Takes x (req code payload) [] := by
  cases x <;> exact ⟨rfl, rfl, rfl, by simp [ask, ready, State.reset, State.setLink, State.link, Link.init]⟩

theorem world_takes (G : Gang) (b : Block) (x : LinkId) (code : Byte) (payload : List Byte) :
    (ask (world G b) x code payload).Takes x (req code payload) [] := by
  cases x <;> exact ⟨rfl, rfl, rfl, by simp [ask, world, ready, State.reset, State.setLink, State.link, Link.init]⟩

theorem busy_active (m : Mode) (dir : Direction) (B : Beat) :
    (busy m dir B).Active 0 (gangIn m [job dir] (some B)) (job dir) [] B := by
  refine ⟨?_, rfl, rfl⟩
  simp [busy, world, State.gang]

theorem witness_StepRunsTheFrontCommand :
    ({ ready with pending := [.packVisit, .startupEnd] } : State).pending = .packVisit :: [.startupEnd] := rfl

theorem witness_EveryCommandAnswersNext : ready.pending = [] := rfl

theorem witness_StoreStaysCanonical : (world (gangIn .manual [] none) blockB).StoreCanonical ∧
    step (world (gangIn .manual [] none) blockB) = .next (world (gangIn .manual [] none) blockB) := by
  exact ⟨by decide, rfl⟩

theorem witness_LinksStayBounded :
    let full : Link := { Link.init with
      intake := List.replicate 4 (req 1#8 []), replies := .reservation :: List.replicate 7 (.reply ⟨0#8, 1#8, []⟩)
      sync := some ⟨1#8, 0, .running 1⟩, notices := List.replicate 16 ⟨0#8, 0, .linkFault .check⟩, dropped := 255 }
    let s := { ready with linkA := full, pending := [.syncTimerExpiry .a] }
    s.LinksBounded ∧ ∃ t, step s = .next t := by
  exact ⟨by decide, _, rfl⟩

/-- A gang that drives in MANUAL, and one that is held off. -/
def driving (high : Bool) : State :=
  let G := gangIn .manual [] none
  let s := world { G with cfg := { G.cfg with manualOut := true, holdOff := true } } blockB
  { s with pins := s.pins.set 1 { s.pins[1] with hold := high }, lanes := s.lanes.set 0 ⟨some 0, 0x00#8, high⟩ }

set_option maxRecDepth 8000 in
theorem witness_LanesStayWithTheirGangs (high : Bool) :
    let s := { driving high with pending := [.holdChange 1 (!high)] }
    (s.LanesAgree ∧ s.FreeLanesFloat ∧ s.QueuesShape ∧ s.DriversSound) ∧ (s.gang 0).map s.heldOff = some !high ∧
      ∃ t, step s = .next t := by
  refine ⟨?_, ?_, _, rfl⟩ <;> cases high
  · exact ⟨by decide, by decide, by decide, by decide, by decide, by decide⟩
  · exact ⟨by decide, by decide, by decide, by decide, by decide, by decide⟩
  · decide
  · decide

set_option maxRecDepth 4000 in
theorem witness_QueuesAndNumberingStaySound :
    let s := { busy .lockstep .send (inPhase .settle) with pending := [.settleEnd 0 calm] }
    s.QueuesShape ∧ s.NumberingSound ∧ ∃ t, step s = .next t := by
  exact ⟨by decide, by decide, _, rfl⟩

set_option maxRecDepth 4000 in
theorem witness_RefsAndAccessRecordsStaySound :
    let s := { busy .lockstep .send (inPhase .settle) with pending := [.settleEnd 0 calm] }
    s.RefsCount ∧ s.AccessSound ∧ ∃ t, step s = .next t := by
  exact ⟨by decide, by decide, _, rfl⟩

set_option maxRecDepth 8000 in
theorem witness_RefsAndAccessRecordsStaySound_entries :
    let s := { busy .lockstep .capture (inPhase .settle) with pending := [.settleEnd 0 calm] }
    s.RefsCount ∧ s.QueuesShape ∧ s.FlightsRunning ∧ s.EntriesActive ∧ ((s.block 0).map fun b => b.mentions (· == 0)) = some true ∧
      ∃ t, step s = .next t := by
  exact ⟨by decide, by decide, by decide, by decide, by decide, _, rfl⟩

set_option maxRecDepth 4000 in
theorem witness_StoreLayoutStaysSound :
    let s := { ready with pending := [.startupEnd] }
    s.LayoutSound ∧ ∃ t, step s = .next t := by
  refine ⟨⟨by decide, fun n hn => ?_, by decide, by decide⟩, _, rfl⟩
  have hb : ready.blocks = [] := by decide
  show (ready.blocks.filter fun e => e.2.covers n).length + (ready.free.filter fun e => e.covers n).length = 1
  rw [hb, show ready.free = [⟨0, 2048⟩] from rfl]
  simp [Extent.covers, hn]

set_option maxRecDepth 8000 in
theorem witness_FrameBytesCarryTheRequest :
    let s := ready.setLink .b { Link.init with intake := [⟨1#8, 1#8, []⟩, ⟨2#8, 1#8, []⟩, ⟨3#8, 1#8, []⟩] }
    noticing.receiving .a = true ∧ (noticing.link .a).parser = .hunting ∧ (noticing.link .a).intake = [] ∧
      (noticing.link .a).sync = none ∧ (List.replicate 232 0x55#8).length ≤ 232 ∧ s.receiving .b = true ∧ (s.link .b).parser = .hunting ∧
      (s.link .b).intake.length < 4 ∧ (∀ q ∈ (s.link .b).intake, q.tag ≠ 4#8) ∧
      ∀ p ∈ (s.link .b).sync, p.tag ≠ 4#8 := by decide

theorem witness_TakingNeedsAFreeLink :
    (Instr.hello .a).requestLink = some .a ∧ ¬ State.reset.CanTake .a ∧ ¬ ready.CanTake .a ∧
      ¬ ((ask ready .a 1#8 []).setLink .a { Link.init with intake := [req 1#8 []], sync := some ⟨1#8, 0, .running 1⟩ }).CanTake .a ∧
      ¬ (ready.setLink .a { Link.init with
          intake := [req 1#8 []], replies := List.replicate 8 (.reply ⟨0#8, 1#8, []⟩) }).CanTake .a := by decide

theorem witness_UnknownCodesAndWrongLengthsAreRefused :
    (ask ready .a 0x06#8 []).Takes .a (req 0x06#8 []) [] ∧ (ask ready .b 0xFF#8 []).Takes .b (req 0xFF#8 []) [] ∧
      (ask ready .a 0x10#8 [16#8]).Takes .a (req 0x10#8 [16#8]) [] ∧
      (requestRow (.define .a)).map (fun e => (e.1, e.2 [16#8])) = some (0x10#8, false) ∧
      (requestRow (.restartAll .a 0)).map (fun e => (e.1, e.2 [])) = some (0x03#8, false) := by
  exact ⟨ask_takes .., ask_takes .., ask_takes .., by decide, by decide⟩

/-- Every statement about a request on a part with nothing else in it: HELLO, SUMMARY, STORE-MAP, RESTART, SYNC, DEFINE,
DELETE, DESCRIBE, CATALOG, WRITE, READ, FILL, PACK, FORM, DISSOLVE, CONFIGURE, TIMING, GANG-STATUS, GET-LINES, SET-LINES,
SET-CONTROL, SUBMIT, HALT, PAUSE and RESUME. -/
theorem witness_requests (x : LinkId) :
    (ask ready x 0x01#8 []).Takes x (req 0x01#8 []) [] ∧ (ask ready x 0x02#8 []).Takes x (req 0x02#8 []) [] ∧
      (ask ready x 0x15#8 [0#8]).Takes x (req 0x15#8 [0#8]) [] ∧ (ask ready x 0x03#8 [0#8]).Takes x (req 0x03#8 [0#8]) [] ∧
      (ask ready x 0x03#8 [1#8]).Takes x (req 0x03#8 [1#8]) [] ∧ (ask ready x 0x03#8 [2#8]).Takes x (req 0x03#8 [2#8]) [] ∧
      (ask ready x 0x05#8 [0#8, 0#8, 1#8]).Takes x (req 0x05#8 [0#8, 0#8, 1#8]) [] ∧
      (ask ready x 0x11#8 [0#8, 0#8]).Takes x (req 0x11#8 [0#8, 0#8]) [] ∧
      (ask ready x 0x13#8 [47#8, 0#8]).Takes x (req 0x13#8 [47#8, 0#8]) [] ∧
      (ask ready x 0x14#8 [0#8]).Takes x (req 0x14#8 [0#8]) [] ∧ (ask ready x 0x19#8 []).Takes x (req 0x19#8 []) [] ∧
      (ask ready x 0x20#8 [9#8, 1#8]).Takes x (req 0x20#8 [9#8, 1#8]) [] ∧
      (ask ready x 0x21#8 [7#8]).Takes x (req 0x21#8 [7#8]) [] ∧ (ask ready x 0x24#8 [7#8]).Takes x (req 0x24#8 [7#8]) [] ∧
      (ask ready x 0x26#8 [7#8]).Takes x (req 0x26#8 [7#8]) [] ∧
      (ask ready x 0x27#8 [0#8, 1#8]).Takes x (req 0x27#8 [0#8, 1#8]) [] ∧
      (ask ready x 0x32#8 [0#8]).Takes x (req 0x32#8 [0#8]) [] ∧ (ask ready x 0x33#8 [0#8]).Takes x (req 0x33#8 [0#8]) [] ∧
      (ask ready x 0x34#8 [0#8]).Takes x (req 0x34#8 [0#8]) [] := by
  refine ⟨?_, ?_, ?_, ?_, ?_, ?_, ?_, ?_, ?_, ?_, ?_, ?_, ?_, ?_, ?_, ?_, ?_, ?_, ?_⟩ <;> exact ask_takes ..

theorem witness_LinkResetTearsDownTheLinksWork :
    (ask (world (gangIn .manual [] none) blockB) .a 0x04#8 []).Takes .a (req 0x04#8 []) [] ∧ ready.LanesAgree ∧
      ready.mode = .ready ∧ ready.silent = false ∧ State.reset.mode ≠ .ready ∧
      ({ ready with silent := true } : State).silent = true := by
  exact ⟨world_takes .., by decide, rfl, rfl, by decide, rfl⟩

theorem witness_LinkReset_LanesAgree : (ask (world (gangIn .manual [] none) blockB) .a 0x04#8 []).LanesAgree := by decide

theorem witness_SyncWaitsForTheGang :
    let s := ready.setLink .a { Link.init with sync := some ⟨1#8, 0, .running 1⟩, replies := [.reservation] }
    s.mode = .ready ∧ (s.link .a).sync = some ⟨1#8, 0, .running 1⟩ ∧ (ready.link .b).sync = none ∧
      .reservation ∉ [ReplyEntry.reply ⟨1#8, 1#8, []⟩] := by decide

theorem witness_DefineChecksAndCreates :
    let short : List Byte := [1#8, 0x41#8, 0#8, 0#8, 0#8, 1#8]
    let long : List Byte := 15#8 :: List.replicate 15 0x41#8 ++ [0#8, 2#8, 0#8, 0#8, 7#8]
    (1 ≤ byteAt short 0 ∧ short.length = 5 + byteAt short 0) ∧ (byteAt long 0 ≤ 15 ∧ long.length = 6 + byteAt long 0) := by
  decide

theorem witness_FreeListMergesAndAllocates :
    let l : List Extent := [⟨0, 4⟩, ⟨8, 2040⟩]
    FreeListSound l ∧ (∀ h ∈ l, h.base + h.count ≤ 4 ∨ 4 + 4 ≤ h.base) ∧ (∀ e ∈ l, e.count < 2041) ∧
      allocate 4 l = some (0, [⟨8, 2040⟩]) ∧ allocate 5 l = some (8, [⟨0, 4⟩, ⟨13, 2035⟩]) ∧ allocate 2040 l = some (8, [⟨0, 4⟩]) := by decide

theorem witness_LookupFindsTheName :
    (ask (world (gangIn .manual [] none) blockB) .a 0x12#8 [1#8, 0x62#8]).Takes .a (req 0x12#8 [1#8, 0x62#8]) [] ∧
      (world (gangIn .manual [] none) blockB).block 0 = some blockB ∧ blockB.name = foldName [0x62#8] ∧
      ∀ j : SlotId, j ≠ 0 → (world (gangIn .manual [] none) blockB).block j = none := by
  exact ⟨world_takes .., by decide, by decide, by decide⟩

theorem witness_LookupFindsTheName_absent : ∀ i : SlotId, (ask ready .a 0x12#8 [1#8, 0x62#8]).block i = none := by decide

set_option maxRecDepth 8000 in
theorem witness_data_requests (x : LinkId) :
    (ask ready x 0x16#8 ([0#8, 1#8, 0#8, 0#8, 0#8, 0#8] ++ List.replicate 224 0#8)).Takes x
        (req 0x16#8 ([0#8, 1#8, 0#8, 0#8, 0#8, 0#8] ++ List.replicate 224 0#8)) [] ∧
      (List.replicate 224 (0#8 : Byte)).length ≤ 226 ∧
      (ask ready x 0x17#8 [0#8, 1#8, 0#8, 0#8, 0#8, 0#8, 224#8]).Takes x (req 0x17#8 [0#8, 1#8, 0#8, 0#8, 0#8, 0#8, 224#8]) [] ∧
      (ask ready x 0x18#8 [0#8, 1#8, 0#8, 0#8, 0#8, 0#8, 0#8, 2#8, 0#8, 0#8, 9#8]).Takes x
        (req 0x18#8 [0#8, 1#8, 0#8, 0#8, 0#8, 0#8, 0#8, 2#8, 0#8, 0#8, 9#8]) [] := by
  exact ⟨ask_takes .., by decide, ask_takes .., ask_takes ..⟩

/-- The pack unit at work, and with a move of slot 0 in flight. -/
def packing (st : PackState) (m : Option Move) : State :=
  { world (gangIn .manual [] none) { blockB with base := 4, dest := m.map Move.dst } with
    free := if m.isSome then [⟨5, 2043⟩] else [⟨0, 4⟩, ⟨5, 2043⟩]
    pack := { Pack.init with state := st, link := some .b, move := m } }

theorem witness_PackStartsAndStops :
    (ask (packing .running none) .a 0x1A#8 []).Takes .a (req 0x1A#8 []) [] ∧
      (packing .running none).pack.link = some .b ∧ ready.pack.state = .idle ∧
      (packing .running (some ⟨0, 4, 0, 1⟩)).pack.move ≠ none ∧
      (packing .stopping (some ⟨0, 4, 0, 1⟩)).pack.state = .stopping := by decide

theorem witness_PackVisitStaysMovesOrEnds :
    let s := packing .running none
    let low := { s with free := [⟨5, 2043⟩] }
    let past := { s with pack := { s.pack with cursor := 5 } }
    s.mode = .ready ∧ s.pack.state = .running ∧ s.pack.move = none ∧ (past.block 0).map Block.base = some 4 ∧
      s.pack.cursor ≤ 4 ∧ (∀ j : SlotId, j ≠ 0 → s.block j = none) ∧ (∀ e ∈ low.free, e.base + e.count ≠ 4) ∧
      (⟨0, 4⟩ : Extent) ∈ s.free ∧ FreeListSound s.free ∧ State.reset.mode ≠ .ready ∧ ready.pack.state ≠ .running := by
  decide

theorem witness_MoveCompletionRelocatesTheBlock :
    let s := packing .stopping (some ⟨0, 4, 0, 1⟩)
    s.mode = .ready ∧ s.pack.move = some ⟨0, 4, 0, 1⟩ ∧ (s.block 0).isSome = true ∧ s.pack.state = .stopping ∧
      s.pack.link = some .b ∧ (packing .running (some ⟨0, 4, 0, 1⟩)).pack.state ≠ .stopping ∧ ready.pack.move = none := by
  decide

theorem witness_ActivationClaimsTheBlock (dir : Direction) :
    let G := gangIn .lockstep [job dir] none
    let s := world G blockB
    let t := world G { blockB with waiters := [⟨2, 1, true⟩], writer := some 2 }
    s.gang 0 = some G ∧ G.queue = [job dir] ∧ s.block (job dir).slot = some blockB ∧ blockB.waiters = [] ∧
      blockB.writer = none ∧ blockB.readers = [] ∧ t.gang 0 = some G ∧ (t.block (job dir).slot).map Block.writer = some (some 2) := by
  cases dir <;> decide

theorem witness_ActivationClaimsTheBlock_grants :
    let s := busy .lockstep .send .init
    s.gang 0 = some (gangIn .lockstep [job .send] (some .init)) ∧
      ([1, 3] : List GangId).Pairwise (· < ·) ∧ addReader 2 [1, 3] = [1, 2, 3] ∧ addReader 3 [1, 3] = [1, 3] := by decide

theorem witness_DissolveFreesTheGang :
    let s := ready.setLink .a { Link.init with notices := [⟨5#8, 1, .flagEdge 3 true 2 true⟩] }
    ((s.orphanEdges .a (· == 3)).notifyEdge .a 3 false).linkA.notices.map (fun n => (n.seq, n.body)) =
      [(5#8, .flagEdge 3 true 2 false), (0#8, .flagEdge 3 false 1 true)] := by decide

theorem witness_EvaluationGrantsFromTheHead :
    let waiting := fun ws => world (gangIn .lockstep [job .send] (some .init)) { blockB with waiters := ws }
    ((waiting []).block 0).map Block.waiters = some [] ∧
      ((waiting [⟨1, 0, true⟩, ⟨2, 1, false⟩]).block 0).map Block.waiters = some [⟨1, 0, true⟩, ⟨2, 1, false⟩] ∧
      ((waiting [⟨1, 0, false⟩, ⟨2, 1, true⟩]).block 0).map Block.waiters = some ([⟨1, 0, false⟩] ++ [⟨2, 1, true⟩]) ∧
      (((waiting [⟨1, 0, true⟩]).evaluate 0).block 0).map Block.writer = some (some 0) := by decide

theorem witness_ConfigureReplacesTheFields (x : LinkId) :
    let p : List Byte := 0#8 :: 4#8 :: List.replicate 11 1#8
    (ask ready x 0x22#8 p).Takes x (req 0x22#8 p) [] ∧ (List.replicate 11 (1#8 : Byte)).length = 11 := by
  exact ⟨ask_takes .., by decide⟩

theorem witness_TimingAppliesTheLeastMember (x : LinkId) :
    let p : List Byte := 0#8 :: List.replicate 14 1#8
    (ask ready x 0x23#8 p).Takes x (req 0x23#8 p) [] ∧ p.length = 15 ∧ appliedTime 1 = 100 ∧ appliedTime 9900 = 9900 ∧
      appliedTime 9901 = 10000 ∧ appliedTime 99001 = 100000 ∧ appliedTime 990001 = 1000000 ∧
      appliedTime 9900000 = 9900000 := by
  exact ⟨ask_takes .., by decide, by decide, by decide, by decide, by decide, by decide, by decide⟩

theorem witness_SensedBytesFollowTheLines :
    let s := (world (gangIn .manual [] none) blockB).senseBoard (boardOf 0x0F#8 0#8)
    let on := s.setDrivers (gangIn .manual [] none) true
    s.lanes[0].enabled = false ∧ s.pins[0].board.driven.getLsbD 0 = true ∧ s.pins[2].board.driven.getLsbD 0 = false ∧
      (gangIn .manual [] none).cfg.pullUps = true ∧ on.lanes[0].enabled = true ∧
      s.lanes[9].gang = none ∧ s.lanes[0].gang = some 0 ∧ s.gang 0 = some (gangIn .manual [] none) ∧
      (gangIn .manual [] none).cfg.openDrain = false ∧ on.lanes[0].latched.getLsbD 0 = false := by decide

theorem witness_SetLinesLatchesTheBytes (x : LinkId) :
    (ask ready x 0x25#8 (0#8 :: List.replicate 10 1#8)).Takes x (req 0x25#8 (0#8 :: List.replicate 10 1#8)) [] ∧
      (List.replicate 10 (1#8 : Byte)).length ≤ 10 := by
  exact ⟨ask_takes .., by decide⟩

theorem witness_SetControlSetsCtl :
    let s := world (gangIn .manual [] none) blockB
    s.lanes[9].gang = none ∧ s.lanes[0].gang = some 0 ∧ s.gang 0 = some (gangIn .manual [] none) := by decide

theorem witness_SubmitChecksAndAccepts (x : LinkId) :
    (ask ready x 0x30#8 (List.replicate 13 0#8)).Takes x (req 0x30#8 (List.replicate 13 0#8)) [] ∧
      (List.replicate 13 (0#8 : Byte)).length = 13 := by
  exact ⟨ask_takes .., by decide⟩

theorem witness_IssuedIdIsTheFirstFreeCandidate :
    let s := { busy .lockstep .send (inPhase .settle) with nextId := 65535 }
    1 ≤ s.nextId ∧ s.nextId ≤ 65535 ∧ s.liveJobs.length ≤ 48 ∧ 1 ≤ ready.nextId := by decide

/-- Two jobs in the queue, the second an after_ok job. -/
def chained (x : LinkId) (code : Byte) (payload : List Byte) : State :=
  ask (world (gangIn .lockstep [job .send, { job .send with id := 2, afterOk := true, state := .queued }]
    (some (inPhase .waitReady))) { blockB with refs := 2 }) x code payload

theorem witness_CancelRemovesTheJob (x : LinkId) :
    (chained x 0x31#8 [0#8, 2#8]).Takes x (req 0x31#8 [0#8, 2#8]) [] ∧ (chained x 0x31#8 [0#8, 2#8]).IdsDistinct ∧
      3 ∉ (chained x 0x31#8 [0#8, 3#8]).liveIds ∧
      ((chained x 0x31#8 [0#8, 2#8]).gang 0).map (fun G => (G.owner, G.queue.map Job.id, G.beat)) =
        some (.a, [1] ++ 2 :: [], some (inPhase .waitReady)) := by
  refine ⟨world_takes .., ?_, ?_, ?_⟩ <;> cases x <;> decide

theorem witness_JobStatusReportsTheJob (x : LinkId) :
    (chained x 0x35#8 [0#8, 1#8]).Takes x (req 0x35#8 [0#8, 1#8]) [] ∧ (chained x 0x35#8 [0#8, 1#8]).IdsDistinct ∧
      ((chained x 0x35#8 [0#8, 1#8]).gang 0).map (fun G => (G.queue.map Job.id, G.beat)) =
        some ([] ++ 1 :: [2], some (inPhase .waitReady)) := by
  refine ⟨world_takes .., ?_, ?_⟩ <;> cases x <;> decide

/-- A link whose parser stands in a state with a buffer. -/
def parsing (p : ParserState) (buffer : List Byte) : State :=
  { ready with linkB := { Link.init with parser := p, buffer := buffer } }

theorem witness_ParserActsOnEachByte :
    ready.receiving .b = true ∧ ready.linkB.parser = .hunting ∧ State.reset.receiving .b = false ∧
      (parsing .header [0xA7#8, 1#8, 2#8]).linkB.buffer.length < 4 ∧
      (parsing .header [0xA7#8, 1#8, 2#8, 1#8]).linkB.buffer.length = 4 ∧ (232#8 : Byte).toNat ≤ 232 ∧
      232 < (233#8 : Byte).toNat ∧ 5 ≤ (parsing .payload [0xA7#8, 1#8, 2#8, 1#8, 1#8]).linkB.buffer.length ∧
      (parsing .crc [0xA7#8, 1#8, 2#8, 1#8, 0#8]).linkB.buffer.length = 5 + (0#8 : Byte).toNat := by decide

theorem witness_FramesAreCheckedAndOffered :
    let s := parsing .crc [0xA7#8, 1#8, 2#8, 1#8, 0#8, 0#8]
    s.receiving .b = true ∧ (s.link .b).parser = .crc ∧
      (s.link .b).buffer.length = 6 + ((s.link .b).buffer.getD 4 0#8).toNat := by decide

theorem witness_FramesEndedEarlyAreTruncated :
    ({ ready with gap := .running 10 } : State).gap.isRunning = true ∧ ready.mode = .ready ∧ ready.gap = .stopped ∧
      State.reset.mode ≠ .ready := by decide

theorem witness_TransmitterSendsRepliesFirst :
    ready.mode = .ready ∧ (ready.link .a).outbound = none ∧
      ((ready.setLink .a { Link.init with outbound := some ⟨[1#8], 0⟩ }).link .a).outbound ≠ none ∧
      noticing.linkA.outbound = none ∧ noticing.attn = true := by decide

theorem witness_NoticesQueueWithTheirFields :
    let one := ready.setLink .a { Link.init with notices := [⟨0#8, 0, .flagEdge 3 true 255 true⟩] }
    (∀ n ∈ (ready.link .a).notices, n.isEdgeOf 3 = false) ∧
      (one.link .a).notices = [] ++ ⟨0#8, 0, .flagEdge 3 true 255 true⟩ :: [] := by decide

theorem witness_StartUpsBeginAndEnd :
    State.reset.mode = .starting .power ∧ ∀ cause, ready.mode ≠ .starting cause := by
  exact ⟨rfl, by simp [ready]⟩

/-- The active job of every mode and direction, its block, and the lanes of its gang: DriveAndSampleMoveTheBeat,
BeatsBeginAtTheirFirstStep and CompletionAdvancesTheBeat. -/
theorem witness_active_jobs (m : Mode) (dir : Direction) (B : Beat) :
    (busy m dir B).Active 0 (gangIn m [job dir] (some B)) (job dir) [] B ∧
      (busy m dir B).block (job dir).slot =
        some { blockB with writer := if dir = .capture then some 0 else none } ∧
      (gangIn m [job dir] (some B)).cfg.mode = m ∧ (job dir).dir = dir ∧
      (gangIn m [job dir] (some B)).first.val + (gangIn m [job dir] (some B)).width ≤ 10 := by
  refine ⟨busy_active m dir B, ?_, rfl, rfl, by simp [gangIn, newGang]⟩
  simp [busy, world, State.block, job]

theorem witness_FlgChangeIsWatchedOrTested (m : Mode) (dir : Direction) (p : Phase) :
    let s := busy m dir (inPhase p)
    s.mode = .ready ∧ s.pins[0].flg = false ∧ s.lanes[0].gang = some 0 ∧ s.lanes[1].gang = some 0 ∧ s.lanes[2].gang = none ∧
      s.Active 0 (gangIn m [job dir] (some (inPhase p))) (job dir) [] (inPhase p) ∧
      (gangIn m [job dir] (some (inPhase p))).first = 0 ∧ (inPhase p).inFlight = true ∧ (inPhase p).abandoned = false := by
  exact ⟨rfl, rfl, rfl, rfl, rfl, busy_active .., rfl, rfl, rfl⟩

/-- A gang under hold-off, with a job or without one. -/
def held (queue : List Job) (beat : Option Beat) (high : Bool) : State :=
  let G := gangIn .lockstep queue beat
  let s := world { G with cfg := { G.cfg with holdOff := true } } blockB
  { s with pins := s.pins.set 0 { s.pins[0] with hold := high } }

theorem witness_HoldChangeAbandonsAndRestarts :
    let B := inPhase .settle
    let G := { gangIn .lockstep [job .send] (some B) with cfg := { GangConfig.init with mode := .lockstep, holdOff := true } }
    let up := held [job .send] (some B) true
    let down := held [job .send] (some { B with abandoned := true }) false
    up.mode = .ready ∧ up.pins[0].hold ≠ false ∧ up.lanes[0].gang = some 0 ∧ up.gang 0 = some G ∧ up.heldOff G = false ∧
      (up.setHoldPin 0 false).heldOff G = true ∧ down.heldOff G = true ∧ (down.setHoldPin 0 true).heldOff G = false ∧
      (up.setHoldPin 5 false).heldOff G = up.heldOff G ∧ ready.lanes[0].gang = none ∧
      ((held [] none false).gang 0).map Gang.queue = some [] := by decide

theorem witness_SettleEndTakesTheNextStep (m : Mode) (dir : Direction) (p : Phase) :
    let s := busy m dir (inPhase p)
    s.mode = .ready ∧ s.Active 0 (gangIn m [job dir] (some (inPhase p))) (job dir) [] (inPhase p) ∧
      (inPhase p).inFlight = true ∧ (inPhase p).abandoned = false ∧ (inPhase p).phase = some p ∧ (inPhase p).sampled = false ∧
      (gangIn m [job dir] (some (inPhase p))).time.settle ≤ (gangIn m [job dir] (some (inPhase p))).time.pulse ∧
      State.reset.mode ≠ .ready := by
  exact ⟨rfl, busy_active .., rfl, rfl, rfl, rfl, Nat.le_refl _, by decide⟩

theorem witness_PulseAndPeriodEnd (m : Mode) (dir : Direction) (p : Phase) :
    let B := { inPhase p with periodTimer := .running 10000 }
    let s := busy m dir B
    s.mode = .ready ∧ s.Active 0 (gangIn m [job dir] (some B)) (job dir) [] B ∧ B.inFlight = true ∧ B.abandoned = false ∧
      B.phase = some p ∧ B.periodTimer.isRunning = true ∧ (GangTiming.init).pulse ≤ (GangTiming.init).settle ∧
      State.reset.mode ≠ .ready := by
  exact ⟨rfl, busy_active .., rfl, rfl, rfl, rfl, by decide, by decide⟩

theorem witness_ExpiryFaultsAndDepartureFollows (m : Mode) (dir : Direction) (p : Phase) :
    let B := { inPhase p with beatTimer := .running 1 }
    let s := busy m dir B
    s.mode = .ready ∧ s.Active 0 (gangIn m [job dir] (some B)) (job dir) [] B ∧ B.inFlight = true ∧
      B.beatTimer.isRunning = true ∧ B.phase = some p ∧ (inPhase p).beatTimer = .stopped := by
  exact ⟨rfl, busy_active .., rfl, rfl, rfl, rfl⟩

/-- A departure that leaves a job: the head ends DONE, and the job behind it stays. -/
theorem witness_ExpiryFaultsAndDepartureFollows_next :
    let next : Job := { job .send with id := 2, state := .queued }
    let G := gangIn .lockstep [job .send, next] (some (inPhase .waitTake))
    let s := world G { blockB with refs := 2, readers := [0] }
    s.Active 0 G (job .send) [next] (inPhase .waitTake) ∧
      ((s.departHead 0 .done none).gang 0).map (fun G => G.queue.map Job.id) = some [2] := by
  refine ⟨⟨?_, rfl, rfl⟩, by decide⟩
  simp [world, State.gang]

end Sys2Proof.Tests
end

section
/-! PROOFS. The block store: the requests of the store area that create, delete, find, read and change blocks
(R8-R21), and SUMMARY (R166). -/

namespace Sys2Proof.Machine

/-! ## Fields of payloads (R160): what is written for a byte that was read -/

/-- A one-byte field holds the byte it was read from. -/
@[simp] theorem u8_toNat (c : Byte) : u8 c.toNat = [c] := by simp [u8]

/-- A byte written from a number that agrees with it modulo 256. -/
theorem byte_ofNat_add (k : Nat) (c : Byte) : BitVec.ofNat 8 (k * 256 + c.toNat) = c := by
  apply BitVec.eq_of_toNat_eq
  have := c.isLt
  rw [BitVec.toNat_ofNat]
  omega

/-- A two-byte field splits its number at 256. -/
theorem u16_mul_add (k : Nat) (c : Byte) : u16 (k * 256 + c.toNat) = [BitVec.ofNat 8 k, c] := by
  have := c.isLt
  rw [u16, byte_ofNat_add, show (k * 256 + c.toNat) / 256 = k by omega]

/-- A four-byte field holds the four bytes its number was read from, most significant first. -/
theorem u32_bytes (c3 c2 c1 c0 : Byte) :
    u32 (((c3.toNat * 256 + c2.toNat) * 256 + c1.toNat) * 256 + c0.toNat) = [c3, c2, c1, c0] := by
  have := c1.isLt
  have := c0.isLt
  have hlow : u16 (((c3.toNat * 256 + c2.toNat) * 256 + c1.toNat) * 256 + c0.toNat) = [c1, c0] := by
    rw [u16_mul_add, byte_ofNat_add]
  have hhigh : (((c3.toNat * 256 + c2.toNat) * 256 + c1.toNat) * 256 + c0.toNat) / 65536 =
      c3.toNat * 256 + c2.toNat := by omega
  rw [u32, hlow, hhigh, u16_mul_add]
  simp

/-- The four-byte field behind `front`, most significant byte first. -/
theorem be32_append (front tail : List Byte) (c3 c2 c1 c0 : Byte) :
    be32 (front ++ c3 :: c2 :: c1 :: c0 :: tail) front.length =
      ((c3.toNat * 256 + c2.toNat) * 256 + c1.toNat) * 256 + c0.toNat := by
  have hbyte : ∀ (k : Nat) (l : List Byte), byteAt (front ++ l) (front.length + k) = byteAt l k := by
    intro k l
    simp [byteAt, List.getD_eq_getElem?_getD, List.getElem?_append_right]
  have h0 := hbyte 0 (c3 :: c2 :: c1 :: c0 :: tail)
  rw [Nat.add_zero] at h0
  simp only [be32, be16, Nat.add_assoc, hbyte, h0]
  simp only [byteAt, List.getD_cons_zero, List.getD_cons_succ]
  omega

/-- The state field of a block: 1 exactly while it is MOVING. -/
theorem flagByte_isSome (o : Option Nat) : flagByte o.isSome = [if o = none then 0#8 else 1#8] := by
  cases o <;> rfl

/-! ## Taking and answering a request of the store area -/

@[simp] theorem State.popped_dir (s : State) (x : LinkId) (rest : List Request) : (s.popped x rest).dir = s.dir := by
  simp [State.popped]

@[simp] theorem State.popped_free (s : State) (x : LinkId) (rest : List Request) : (s.popped x rest).free = s.free := by
  simp [State.popped]

@[simp] theorem State.popped_pack (s : State) (x : LinkId) (rest : List Request) : (s.popped x rest).pack = s.pack := by
  simp [State.popped]

@[simp] theorem State.popped_store (s : State) (x : LinkId) (rest : List Request) :
    (s.popped x rest).store = s.store := by
  simp [State.popped]

@[simp] theorem State.popped_named (s : State) (x : LinkId) (rest : List Request) (name : List Byte) :
    (s.popped x rest).named name = s.named name := by
  simp [State.named]

@[simp] theorem State.popped_freeSlot (s : State) (x : LinkId) (rest : List Request) :
    (s.popped x rest).freeSlot = s.freeSlot := by
  simp [State.freeSlot]

@[simp] theorem State.popped_resolveAt (s : State) (x : LinkId) (rest : List Request) (p : List Byte) (i : Nat) :
    (s.popped x rest).resolveAt p i = s.resolveAt p i := by
  simp [State.resolveAt]

@[simp] theorem State.popped_handle (s : State) (x : LinkId) (rest : List Request) (i : SlotId) :
    (s.popped x rest).handle i = s.handle i := by
  simp [State.handle]

/-- New store bytes and the taking of a request do not touch each other. -/
theorem State.popped_withStore (s : State) (x : LinkId) (rest : List Request) (m : Mem) :
    ({ s.popped x rest with store := m } : State) = ({ s with store := m } : State).popped x rest := by
  cases x <;> rfl

theorem State.popped_create (s : State) (x : LinkId) (rest : List Request) (i : SlotId) (name : List Byte)
    (size base : Nat) (free : List Extent) (fill : Byte) :
    (s.popped x rest).create i name size base free fill = (s.create i name size base free fill).popped x rest := by
  cases x <;> rfl

theorem State.popped_destroy (s : State) (x : LinkId) (rest : List Request) (i : SlotId) (b : Block) :
    (s.popped x rest).destroy i b = (s.destroy i b).popped x rest := by
  cases x <;> rfl

/-- An OK answer whose effect `t` has been computed beside the taking. -/
theorem answer_ok_popped (s t : State) (x : LinkId) (r : Request) (rest : List Request) (fields : List Byte) :
    answer x r s (.ok fields (t.popped x rest)) = t.answered x r rest (statusOk :: fields) :=
  answer_ok_same t x r rest fields

/-- A handle at the beginning of a payload (R160). -/
theorem State.resolveAt_handle (s : State) (slot gen : Byte) (tail : List Byte) :
    s.resolveAt (slot :: gen :: tail) 0 = s.resolve slot.toNat gen := rfl

/-! ## Searching the directory (R2, R5, R11) -/

theorem State.mem_blocks {s : State} {i : SlotId} {b : Block} : (i, b) ∈ s.blocks ↔ s.block i = some b := by
  simp [State.blocks]

/-- A name search finds none exactly when no block carries the name. -/
theorem State.named_eq_none_iff {s : State} {name : List Byte} :
    s.named name = none ↔ ∀ (i : SlotId) (b : Block), s.block i = some b → b.name ≠ name := by
  simp [State.named, List.find?_eq_none, State.mem_blocks]

/-- A block that a name search finds carries the name. -/
theorem State.block_of_named {s : State} {name : List Byte} {i : SlotId} {b : Block} (h : s.named name = some (i, b)) :
    s.block i = some b ∧ b.name = name :=
  ⟨State.mem_blocks.1 (List.mem_of_find?_eq_some h), by simpa using List.find?_some h⟩

/-- A name that only one block carries is found in its slot. -/
theorem State.named_of_unique {s : State} {name : List Byte} {i : SlotId} {b : Block} (hb : s.block i = some b)
    (hname : b.name = name)
    (huniq : ∀ (j : SlotId) (c : Block), s.block j = some c → c.name = name → j = i) :
    s.named name = some (i, b) := by
  cases hfound : s.named name with
  | none => exact absurd hname (State.named_eq_none_iff.1 hfound i b hb)
  | some e =>
    obtain ⟨j, c⟩ := e
    obtain ⟨hc, hcname⟩ := State.block_of_named hfound
    obtain rfl := huniq j c hc hcname
    rw [Option.some.inj (hc.symm.trans hb)]

theorem State.named_isSome (s : State) (name : List Byte) :
    (s.named name).isSome = s.blocks.any fun e => e.2.name == name := by
  rw [State.named, Bool.eq_iff_iff, List.find?_isSome, List.any_eq_true]

/-- The free slot found is the lowest. -/
theorem State.freeSlot_lowest {s : State} {i : SlotId} (h : s.freeSlot = some i) :
    s.block i = none ∧ ∀ j : SlotId, j < i → s.block j ≠ none := by
  obtain ⟨hi, k, hk, rfl, hbelow⟩ := List.find?_eq_some_iff_getElem.1 h
  refine ⟨by simpa using hi, fun j hj => ?_⟩
  simpa [Option.isSome_iff_ne_none] using hbelow j.val (by simpa [Fin.lt_def] using hj)

/-- No slot is free exactly when every slot is used. -/
theorem State.freeSlot_eq_none_iff {s : State} :
    s.freeSlot = none ↔ (List.finRange 48).all (fun i => (s.block i).isSome) = true := by
  simp [State.freeSlot, List.find?_eq_none, Option.isSome_iff_ne_none]

theorem State.exists_freeSlot {s : State} (h : ¬ (List.finRange 48).all (fun i => (s.block i).isSome) = true) :
    ∃ i, s.freeSlot = some i :=
  Option.ne_none_iff_exists'.1 (mt State.freeSlot_eq_none_iff.1 h)

/-! ## Allocation (R9) -/

theorem granulesOf_pos {size : Nat} (h : size ≠ 0) : 0 < granulesOf size := by
  simp only [granulesOf]
  omega

/-- The largest extent is too small exactly when every extent is. -/
theorem largestExtent_lt_iff {n : Nat} (hn : 0 < n) (l : List Extent) :
    largestExtent l < n ↔ ∀ e ∈ l, e.count < n := by
  induction l with
  | nil => simpa [largestExtent] using hn
  | cons e es ih =>
    rw [List.forall_mem_cons, ← ih]
    exact max_lt_iff

/-- What is left of an extent list when its extent `e`, between `low` and `high`, gives up its lowest `n` granules. -/
def cutExtent (n : Nat) (low : List Extent) (e : Extent) (high : List Extent) : List Extent :=
  low ++ (if e.count = n then high else ⟨e.base + n, e.count - n⟩ :: high)

theorem allocate_eq_none_iff (n : Nat) (l : List Extent) : allocate n l = none ↔ ∀ e ∈ l, e.count < n := by
  induction l with
  | nil => simp [allocate]
  | cons e es ih =>
    rw [List.forall_mem_cons, ← ih, allocate]
    split_ifs with heq hlt
    · simp [heq]
    · simp [hlt.le]
    · simp [show e.count < n by omega]

/-- First-fit fails exactly when the largest extent is too small. -/
theorem allocate_eq_none_iff_largest {n : Nat} (hn : 0 < n) (l : List Extent) :
    allocate n l = none ↔ largestExtent l < n :=
  (allocate_eq_none_iff n l).trans (largestExtent_lt_iff hn l).symm

/-- First-fit takes the lowest granules of the first extent that is large enough. -/
theorem allocate_eq_some {n base : Nat} {l free : List Extent} (h : allocate n l = some (base, free)) :
    ∃ (low : List Extent) (e : Extent) (high : List Extent),
      l = low ++ e :: high ∧ (∀ f ∈ low, f.count < n) ∧ n ≤ e.count ∧ base = e.base ∧
        free = cutExtent n low e high := by
  induction l generalizing base free with
  | nil => cases h
  | cons e es ih =>
    rw [allocate] at h
    split_ifs at h with heq hlt
    · cases h
      exact ⟨[], e, es, rfl, by simp, heq.ge, rfl, by simp [cutExtent, heq]⟩
    · cases h
      exact ⟨[], e, es, rfl, by simp, hlt.le, rfl, by simp [cutExtent, heq]⟩
    · obtain ⟨⟨base', free'⟩, hrest, hout⟩ := Option.map_eq_some_iff.1 h
      cases hout
      obtain ⟨low, f, high, rfl, hlow, hfit, rfl, rfl⟩ := ih hrest
      exact ⟨e :: low, f, high, rfl, List.forall_mem_cons.2 ⟨by omega, hlow⟩, hfit, rfl, rfl⟩

/-! ## SUMMARY and STORE-MAP -/

theorem exec_summary (x : LinkId) (s : State) : exec (.summary x) s = execSummary x s := by rfl

theorem exec_storeMap (x : LinkId) (s : State) : exec (.storeMap x) s = execStoreMap x s := by rfl

@[simp] theorem State.popped_summaryFields (s : State) (x : LinkId) (rest : List Request) :
    (s.popped x rest).summaryFields = s.summaryFields := by
  simp [State.summaryFields]

/-- Settles O15: the taking of the request changes none of the totals that SUMMARY and STORE-MAP report. -/
theorem summaryAndStoreMapReportTheTotals : Obligations.SummaryAndStoreMapReportTheTotals := by
  refine ⟨fun s x r rest htake hcode hpay => ?_, fun s x r rest start htake hcode hpay => ?_⟩
  · rw [exec_summary, execSummary, State.serve_eq (code := Code.summary) htake hcode (by simp [hpay, noFields]),
      answer_ok_popped, State.popped_summaryFields]
    rfl
  · rw [exec_storeMap, execStoreMap, State.serve_eq (code := Code.storeMap) htake hcode (by simp [hpay])]
    have hstart : byteAt r.payload 0 = start.toNat := by simp [hpay, byteAt]
    simp only [hstart, State.popped_free, State.popped_blocks, State.popped_pack]
    by_cases hpast : s.free.length < start.toNat
    · rw [if_pos hpast, if_pos hpast, answer_refuse]
      rfl
    · rw [if_neg hpast, if_neg hpast, answer_ok_popped, u8_toNat]
      rfl

/-! ## LOOKUP -/

theorem exec_lookup (x : LinkId) (s : State) : exec (.lookup x) s = execLookup x s := by rfl

/-- The folded name of a payload that begins with the name's length byte. -/
theorem nameOf_cons {n : Byte} {chars : List Byte} (h : chars.length = n.toNat) :
    nameOf (n :: chars) = foldName chars := by
  simp [nameOf, byteAt, ← h]

/-- Settles O23: the name search of the directory decides LOOKUP. -/
theorem lookupFindsTheName : Obligations.LookupFindsTheName := by
  intro s x r rest n chars htake hcode hpay hlen hmin hmax
  have hok : lookupLengthOk r.payload = true := by
    simp [hpay, lookupLengthOk, nameLengthOk, byteAt, hlen, hmin, hmax, Nat.add_comm]
  rw [exec_lookup, execLookup, State.serve_eq (code := Code.lookup) htake hcode hok]
  simp only [hpay, nameOf_cons hlen, State.popped_named, State.popped_handle]
  refine ⟨fun habsent => ?_, fun i b hb hname huniq => ?_⟩
  · rw [State.named_eq_none_iff.2 habsent]
    exact congrArg _ (answer_refuse s x r rest .noSuchBlock)
  · rw [State.named_of_unique hb hname huniq]
    simp only [answer_ok_popped, flagByte_isSome]
    rfl

/-! ## DELETE (R12) -/

theorem exec_delete (x : LinkId) (s : State) : exec (.delete x) s = execDelete x s := by rfl

/-- DELETE's checks in their order once the handle resolves. -/
theorem deleteRule_resolved {p : List Byte} {s : State} {i : SlotId} {b : Block} (h : s.resolveAt p 0 = some (i, b)) :
    deleteRule p s =
      if b.dest ≠ none then .refuse .blockBusy
      else if 0 < b.refs then .refuse .blockInUse
      else
        .ok (u16 b.granules ++ u16 (freeGranules (s.destroy i b).free) ++ u16 (largestExtent (s.destroy i b).free) ++
          u8 (s.destroy i b).free.length) (s.destroy i b) := by
  simp [deleteRule, h, Option.isSome_iff_ne_none]

/-- Settles O21, along the checks of R12. -/
theorem deleteReturnsTheGranules : Obligations.DeleteReturnsTheGranules := by
  intro s x r rest slot gen htake hcode hpay
  rw [exec_delete, execDelete, State.serve_eq (code := Code.delete) htake hcode (by simp [hpay]), hpay]
  cases hres : s.resolve slot.toNat gen with
  | none =>
    have hrule : deleteRule [slot, gen] (s.popped x rest) = .refuse .noSuchBlock := by
      simp [deleteRule, State.resolveAt_handle, hres]
    rw [hrule, answer_refuse]
    rfl
  | some e =>
    obtain ⟨i, b⟩ := e
    rw [deleteRule_resolved (i := i) (b := b) (by simpa [State.resolveAt_handle] using hres), State.popped_destroy]
    simp only [State.popped_free]
    split_ifs with hmoving hused
    · rw [answer_refuse]; rfl
    · rw [answer_refuse]; rfl
    · rw [answer_ok_popped]; rfl

/-! ## WRITE, READ and FILL (R18-R21) -/

theorem exec_write (x : LinkId) (s : State) : exec (.write x) s = execWrite x s := by rfl

theorem exec_read (x : LinkId) (s : State) : exec (.read x) s = execRead x s := by rfl

theorem exec_fill (x : LinkId) (s : State) : exec (.fill x) s = execFill x s := by rfl

theorem Block.writable_iff (b : Block) : b.writable = true ↔ b.readers = [] ∧ b.writer = none ∧ b.dest = none := by
  simp [Block.writable, and_assoc]

theorem Block.readable_iff (b : Block) : b.readable = true ↔ b.writer = none ∧ b.dest = none := by
  simp [Block.readable]

/-- A data request whose handle resolves to no block (R18). -/
theorem answer_hostData_unresolved {s : State} {p : List Byte} (h : s.resolveAt p 0 = none) (x : LinkId) (r : Request)
    (rest : List Request) (count most : Nat) (access : Block → Bool) (act : Block → Nat → Answer) :
    answer x r (s.popped x rest) (hostData p count most access (s.popped x rest) act) = s.answered x r rest [8#8] := by
  rw [hostData, State.popped_resolveAt, h]
  exact answer_refuse s x r rest .noSuchBlock

/-- The checks of R18 in their order once the handle resolves, and the answer of each that fails. -/
theorem answer_hostData_resolved {s : State} {p : List Byte} {i : SlotId} {b : Block} (h : s.resolveAt p 0 = some (i, b))
    (x : LinkId) (r : Request) (rest : List Request) (count most : Nat) (access : Block → Bool)
    (act : Block → Nat → Answer) :
    answer x r (s.popped x rest) (hostData p count most access (s.popped x rest) act) =
      if count = 0 ∨ most < count then s.answered x r rest [3#8]
      else if ¬ access b = true then s.answered x r rest [16#8]
      else if b.size < be32 p 2 + count then s.answered x r rest [18#8]
      else answer x r (s.popped x rest) (act b (be32 p 2)) := by
  simp only [hostData, State.popped_resolveAt, h, Bool.not_eq_true', Bool.not_eq_true]
  split_ifs
  · exact answer_refuse s x r rest .badField
  · exact answer_refuse s x r rest .blockBusy
  · exact answer_refuse s x r rest .rangeOutsideBlock
  · rfl

/-- Settles O25: the checks of R18, then one write of the run of data bytes. -/
theorem writeStoresTheData : Obligations.WriteStoresTheData := by
  intro s x r rest slot gen o3 o2 o1 o0 data htake hcode hpay hcap offset
  have hoffset : be32 r.payload 2 = offset := by
    rw [hpay]
    exact be32_append [slot, gen] data o3 o2 o1 o0
  have hdata : r.payload.drop 6 = data := by rw [hpay]; rfl
  have hhandle : s.resolveAt r.payload 0 = s.resolve slot.toNat gen := by
    rw [hpay]
    exact s.resolveAt_handle slot gen _
  have hlen : decide (6 ≤ r.payload.length ∧ r.payload.length ≤ 232) = true := by
    simp only [hpay, List.length_append, List.length_cons, List.length_nil, decide_eq_true_eq]
    omega
  rw [exec_write, execWrite, State.serve_eq (code := Code.write) htake hcode hlen]
  cases hres : s.resolve slot.toNat gen with
  | none => exact congrArg _ (answer_hostData_unresolved (hhandle.trans hres) ..)
  | some e =>
    obtain ⟨i, b⟩ := e
    simp only [answer_hostData_resolved (hhandle.trans hres), hoffset, hdata, Block.writable_iff, dataCap]
    -- the cases in turn: BAD_FIELD, RANGE_OUTSIDE_BLOCK, the request passes, BLOCK_BUSY
    split_ifs with hfield hfree hrange
    · rfl
    · rfl
    · refine ⟨s.store.setBytes (b.addr offset) data, ?_, fun k hk hin => ?_, fun a ha => ?_⟩
      · rw [State.popped_store, State.popped_withStore, answer_ok_popped]
        rfl
      · rw [Mem.get_setBytes_inside _ _ _ (by simp only [Block.addr]; omega) hin]
        congr 1
        simp only [Block.addr]
        omega
      · exact Mem.get_setBytes_outside _ _ _ ha
    · rfl

/-- Settles O26: the checks of R18, then the bytes of the block; the answer is the only change. -/
theorem readReturnsTheBytes : Obligations.ReadReturnsTheBytes := by
  intro s x r rest slot gen o3 o2 o1 o0 count htake hcode hpay offset
  have hoffset : be32 r.payload 2 = offset := by
    rw [hpay]
    exact be32_append [slot, gen] [count] o3 o2 o1 o0
  have hcount : byteAt r.payload 6 = count.toNat := by rw [hpay]; rfl
  have hhandle : s.resolveAt r.payload 0 = s.resolve slot.toNat gen := by
    rw [hpay]
    exact s.resolveAt_handle slot gen _
  rw [exec_read, execRead, State.serve_eq (code := Code.read) htake hcode (by simp [hpay])]
  cases hres : s.resolve slot.toNat gen with
  | none => exact congrArg _ (answer_hostData_unresolved (hhandle.trans hres) ..)
  | some e =>
    obtain ⟨i, b⟩ := e
    simp only [answer_hostData_resolved (hhandle.trans hres), hoffset, hcount, Block.readable_iff, dataCap]
    -- the cases in turn: BAD_FIELD, RANGE_OUTSIDE_BLOCK, the request passes, BLOCK_BUSY
    split_ifs with hfield hfree hrange
    · rfl
    · rfl
    · rw [answer_ok_popped, State.popped_store, u8_toNat, u32_bytes]
      rfl
    · rfl

/-- Settles O27: the checks of R18, then one fill of the run. -/
theorem fillSetsTheBytes : Obligations.FillSetsTheBytes := by
  intro s x r rest slot gen o3 o2 o1 o0 c3 c2 c1 c0 fill htake hcode hpay offset count
  have hoffset : be32 r.payload 2 = offset := by
    rw [hpay]
    exact be32_append [slot, gen] [c3, c2, c1, c0, fill] o3 o2 o1 o0
  have hcount : be32 r.payload 6 = count := by
    rw [hpay]
    exact be32_append [slot, gen, o3, o2, o1, o0] [fill] c3 c2 c1 c0
  have hfill : r.payload.getD 10 0x00#8 = fill := by rw [hpay]; rfl
  have hhandle : s.resolveAt r.payload 0 = s.resolve slot.toNat gen := by
    rw [hpay]
    exact s.resolveAt_handle slot gen _
  rw [exec_fill, execFill, State.serve_eq (code := Code.fill) htake hcode (by simp [hpay])]
  cases hres : s.resolve slot.toNat gen with
  | none => exact congrArg _ (answer_hostData_unresolved (hhandle.trans hres) ..)
  | some e =>
    obtain ⟨i, b⟩ := e
    simp only [answer_hostData_resolved (hhandle.trans hres), hoffset, hcount, hfill, Block.writable_iff, storeSize]
    -- the cases in turn: BAD_FIELD, RANGE_OUTSIDE_BLOCK, the request passes, BLOCK_BUSY
    split_ifs with hfield hfree hrange
    · rfl
    · rfl
    · refine ⟨s.store.fill (b.addr offset) count fill, ?_, fun k hk hin => ?_, fun a ha => ?_⟩
      · rw [State.popped_store, State.popped_withStore, answer_ok_popped, u32_bytes]
        rfl
      · exact Mem.get_fill_inside _ _ _ _ (by simp only [Block.addr]; omega) hin
      · exact Mem.get_fill_outside _ _ _ _ ha
    · rfl

/-! ## Names (R5) -/

/-- Folding subtracts 0x20 from the letters a-z. -/
theorem foldByte_eq (c : Byte) :
    foldByte c = if 0x61 ≤ c.toNat ∧ c.toNat ≤ 0x7A then BitVec.ofNat 8 (c.toNat - 0x20) else c := by
  unfold foldByte
  split_ifs with hlower
  · apply BitVec.eq_of_toNat_eq
    rw [BitVec.toNat_sub, BitVec.toNat_ofNat, BitVec.toNat_ofNat]
    omega
  · rfl

theorem isLetter_iff (c : Byte) : isLetter c = true ↔ 0x41 ≤ c.toNat ∧ c.toNat ≤ 0x5A := by
  simp [isLetter]

theorem isNameChar_iff (c : Byte) :
    isNameChar c = true ↔
      (0x41 ≤ c.toNat ∧ c.toNat ≤ 0x5A) ∨ (0x30 ≤ c.toNat ∧ c.toNat ≤ 0x39) ∨ c = 0x5F#8 ∨ c = 0x2D#8 := by
  simp [isNameChar, isLetter_iff, or_assoc]

/-- A letter first, then at most 14 characters. -/
theorem nameWellFormed_cons (c : Byte) (cs : List Byte) :
    nameWellFormed (c :: cs) = true ↔
      isLetter c = true ∧ (∀ d ∈ cs, isNameChar d = true) ∧ cs.length < 15 := by
  simp [nameWellFormed, and_assoc]

/-- The first character of a well-formed name is one that a name may hold, so the character condition may be asked of
the whole name. -/
theorem nameWellFormed_iff (name : List Byte) :
    nameWellFormed name = true ↔
      1 ≤ name.length ∧ name.length ≤ 15 ∧ (∀ c ∈ name.head?, isLetter c = true) ∧ ∀ c ∈ name, isNameChar c = true := by
  cases name with
  | nil => simp [nameWellFormed]
  | cons c cs =>
    have hfirst : isLetter c = true → isNameChar c = true := fun h => by simp [isNameChar, h]
    rw [nameWellFormed_cons, List.forall_mem_cons]
    simp only [List.length_cons, List.head?_cons, Option.mem_some_iff, forall_eq']
    constructor
    · rintro ⟨hletter, hchars, hlen⟩
      exact ⟨by omega, by omega, hletter, hfirst hletter, hchars⟩
    · rintro ⟨-, hlen, hletter, -, hchars⟩
      exact ⟨hletter, hchars, by omega⟩

/-! ## DEFINE (R10, R11) -/

theorem exec_define (x : LinkId) (s : State) : exec (.define x) s = execDefine x s := by rfl

/-- The first check of R10 that a DEFINE fails, if one does. -/
def defineRefusal (name : List Byte) (size : Nat) (s : State) : Option Status :=
  if nameWellFormed name = false ∨ size = 0 ∨ storeSize < size then some .badField
  else if s.pack.state ≠ .idle then some .storeBusy
  else if s.blocks.any (fun e => e.2.name == name) then some .nameTaken
  else if (List.finRange 48).all (fun i => (s.block i).isSome) then some .directoryFull
  else if freeGranules s.free < granulesOf size then some .storeFull
  else if largestExtent s.free < granulesOf size then some .storeFragmented
  else none

@[simp] theorem State.popped_defineRefusal (s : State) (x : LinkId) (rest : List Request) (name : List Byte)
    (size : Nat) :
    defineRefusal name size (s.popped x rest) = defineRefusal name size s := by
  simp only [defineRefusal, State.popped_pack, State.popped_blocks, State.popped_block, State.popped_free]

theorem define_badField_iff (name : List Byte) (size : Nat) :
    (!nameWellFormed name || size == 0 || decide (storeSize < size)) = true ↔
      nameWellFormed name = false ∨ size = 0 ∨ storeSize < size := by
  simp [or_assoc]

/-- A DEFINE that fails a check is refused with the status of the first one. -/
theorem defineRule_of_refusal {name : List Byte} {size : Nat} {s : State} {st : Status}
    (h : defineRefusal name size s = some st) (fill : Byte) : defineRule name size fill s = .refuse st := by
  unfold defineRefusal at h
  rw [defineRule]
  simp only [define_badField_iff, State.named_isSome]
  split_ifs at h with hbad hbusy htaken hfull hsum hlargest
  all_goals cases h
  · rw [if_pos hbad]
  · rw [if_neg hbad, if_pos hbusy]
  · rw [if_neg hbad, if_neg hbusy, if_pos htaken]
  · rw [if_neg hbad, if_neg hbusy, if_neg htaken, State.freeSlot_eq_none_iff.2 hfull]
  · obtain ⟨i, hi⟩ := State.exists_freeSlot hfull
    simp only [if_neg hbad, if_neg hbusy, if_neg htaken, hi, if_pos hsum]
  · obtain ⟨i, hi⟩ := State.exists_freeSlot hfull
    have hnone := (allocate_eq_none_iff_largest (granulesOf_pos fun hzero => hbad (.inr (.inl hzero))) _).2 hlargest
    simp only [if_neg hbad, if_neg hbusy, if_neg htaken, hi, if_neg hsum, hnone]

/-- A DEFINE that passes every check creates its block in the free slot found, at the base that first-fit allocates. -/
theorem defineRule_of_passed {name : List Byte} {size : Nat} {s : State} (h : defineRefusal name size s = none)
    (fill : Byte) :
    ∃ (i : SlotId) (base : Nat) (free : List Extent),
      s.freeSlot = some i ∧ allocate (granulesOf size) s.free = some (base, free) ∧
      defineRule name size fill s =
        .ok ((s.create i name size base free fill).handle i ++ u16 base ++ u16 (granulesOf size) ++
          u16 (freeGranules free) ++ u16 (largestExtent free)) (s.create i name size base free fill) := by
  unfold defineRefusal at h
  split_ifs at h with hbad hbusy htaken hfull hsum hlargest
  have hpos : 0 < granulesOf size := granulesOf_pos fun hzero => hbad (.inr (.inl hzero))
  obtain ⟨i, hi⟩ := State.exists_freeSlot hfull
  obtain ⟨⟨base, free⟩, halloc⟩ := Option.ne_none_iff_exists'.1 (mt (allocate_eq_none_iff_largest hpos _).1 hlargest)
  refine ⟨i, base, free, hi, halloc, ?_⟩
  rw [defineRule]
  simp only [define_badField_iff, State.named_isSome, if_neg hbad, hbusy, if_neg htaken, hi, if_neg hsum, halloc,
    if_false]

theorem State.create_handle (s : State) (i : SlotId) (name : List Byte) (size base : Nat) (free : List Extent)
    (fill : Byte) : (s.create i name size base free fill).handle i = u8 i.val ++ [s.dir[i].gen + 1#8] := by
  simp [State.handle, State.create]

/-- After a DEFINE the granules of the new block hold the fill byte, and every other byte is as it was. -/
theorem State.create_store_get (s : State) (i : SlotId) (name : List Byte) (size base : Nat) (free : List Extent)
    (fill : Byte) {a : Nat} (ha : a < storeSize) :
    (s.create i name size base free fill).store.get a =
      if 64 * base ≤ a ∧ a < 64 * base + 64 * granulesOf size then fill else s.store.get a := by
  rw [State.create]
  split_ifs with hin
  · exact Mem.get_fill_inside _ _ _ _ hin ha
  · exact Mem.get_fill_outside _ _ _ _ (by omega)

/-- The fill byte of a payload of either permitted length (R10): 0x00 when there is none. -/
theorem defineFill_eq {p : List Byte} (h : p.length = 5 + byteAt p 0 ∨ p.length = 6 + byteAt p 0) :
    defineFill p = if p.length = 6 + byteAt p 0 then p.getD (5 + byteAt p 0) 0x00#8 else 0x00#8 := by
  split_ifs with hlong
  · rfl
  · exact List.getD_eq_default _ _ (h.resolve_right hlong).le

/-- Settles O20: `defineRefusal` gives the checks of R10, and first-fit the granules of a block that passes. -/
theorem defineChecksAndCreates : Obligations.DefineChecksAndCreates := by
  refine ⟨?_, fun name => List.map_congr_left fun c _ => foldByte_eq c, fun name => ?_⟩
  · intro s x r rest htake hcode n hmin hmax hlen name size granules fill refused
    have hok : defineLengthOk r.payload = true := by
      simpa [defineLengthOk, nameLengthOk] using ⟨⟨hmin, hmax⟩, hlen⟩
    have hfill : defineFill r.payload = fill := defineFill_eq hlen
    have hrefused : refused = (defineRefusal name size s).map Status.code := by
      simp only [defineRefusal, apply_ite (Option.map Status.code)]
      rfl
    have hexec : exec (.define x) s =
        .next (answer x r (s.popped x rest) (defineRule name size fill (s.popped x rest))) := by
      rw [exec_define, execDefine, State.serve_eq (code := Code.define) htake hcode hok, hfill]
      rfl
    cases hcheck : defineRefusal name size s with
    | some st =>
      rw [hrefused, hcheck]
      rw [defineRule_of_refusal ((State.popped_defineRefusal ..).trans hcheck), answer_refuse] at hexec
      exact hexec
    | none =>
      rw [hrefused, hcheck]
      obtain ⟨i, base, free, hi, halloc, hrule⟩ :=
        defineRule_of_passed ((State.popped_defineRefusal s x rest name size).trans hcheck) fill
      rw [State.popped_freeSlot] at hi
      rw [State.popped_free] at halloc
      obtain ⟨hempty, hlowest⟩ := State.freeSlot_lowest hi
      obtain ⟨low, e, high, hfree, hlow, hfit, rfl, rfl⟩ := allocate_eq_some halloc
      refine ⟨i, low, e, high, _, hempty, hlowest, hfree, hlow, hfit,
        fun a ha => s.create_store_get i name size e.base (cutExtent granules low e high) fill ha, ?_⟩
      rw [State.popped_create, State.popped_handle, State.create_handle] at hrule
      rw [hexec, hrule, answer_ok_popped]
      rfl
  · rw [nameWellFormed_iff]
    simp only [isLetter_iff, isNameChar_iff]

end Sys2Proof.Machine
end

section
/-! PROOFS. The pack unit: the requests PACK (R40) and STOP-PACK (R48). -/

namespace Sys2Proof.Machine

theorem exec_pack (x : LinkId) (s : State) : exec (.pack x) s = execPack x s := by rfl

theorem exec_stopPack (x : LinkId) (s : State) : exec (.stopPack x) s = execStopPack x s := by rfl

/-! ## Changes beside the taking of a request -/

/-- A change of the pack unit and the taking of a request do not touch each other. -/
theorem State.popped_withPack (s : State) (x : LinkId) (rest : List Request) (p : Pack) :
    ({ s.popped x rest with pack := p } : State) = ({ s with pack := p } : State).popped x rest := by
  cases x <;> rfl

/-- A notice leaves every intake alone, so it may be queued before or after a request is taken, on either link. -/
theorem State.popped_notify (s : State) (x y : LinkId) (rest : List Request) (body : NoticeBody) :
    (s.popped x rest).notify y body = (s.notify y body).popped x rest := by
  by_cases hlink : y = x
  · subst hlink
    simp only [State.popped, State.notify, State.modLink_eq, State.setLink_setLink, State.setLink_link_self]
    split_ifs <;> rfl
  · have hother : x ≠ y := Ne.symm hlink
    simp only [State.popped, State.notify, State.modLink_eq, State.setLink_link_ne _ _ hlink,
      State.setLink_link_ne _ _ hother, State.setLink_comm _ _ _ hlink]

/-- A notice neither reads nor writes the pack unit. -/
theorem State.notify_withPack (s : State) (x : LinkId) (body : NoticeBody) (p : Pack) :
    ({ s.notify x body with pack := p } : State) = ({ s with pack := p } : State).notify x body := by
  cases x <;> rfl

/-! ## The end of a pack (R49) -/

/-- A pack that link `y` requested ends with PACK_DONE on that link; the pack unit is idle and has no requesting link. -/
theorem State.endPack_of_link {s : State} {y : LinkId} (h : s.pack.link = some y) (stopped : Bool) :
    s.endPack stopped =
      ({ s with pack := { s.pack with state := .idle, link := none } } : State).notify y
        (.packDone stopped s.pack.moves s.pack.barriers s.free.length (largestExtent s.free)) := by
  simp only [State.endPack, h, State.notify_pack, State.notify_withPack]

/-- The end of a pack and the taking of a request do not touch each other. -/
theorem State.popped_endPack {s : State} {y : LinkId} (h : s.pack.link = some y) (x : LinkId) (rest : List Request)
    (stopped : Bool) : (s.popped x rest).endPack stopped = (s.endPack stopped).popped x rest := by
  rw [State.endPack_of_link h, State.endPack_of_link (by simpa using h), State.popped_withPack, State.popped_notify]
  simp only [State.popped_pack, State.popped_free]

/-! ## PACK and STOP-PACK -/

/-- PACK (R40): only the pack state is checked. -/
theorem exec_pack_taken {s : State} {x : LinkId} {r : Request} {rest : List Request} (htake : s.Takes x r rest)
    (hcode : r.code = 0x19#8) (hpay : r.payload = []) :
    exec (.pack x) s = .next
      (if s.pack.state ≠ .idle then s.answered x r rest [14#8]
      else
        ({ s with
            pack := { s.pack with state := .running, link := some x, cursor := 0, moves := 0, barriers := 0 } } :
            State).answered x r rest ([0#8] ++ u8 s.free.length)) := by
  rw [exec_pack, execPack, State.serve_eq (code := Code.pack) htake hcode (by simp [hpay])]
  simp only [State.popped_pack]
  split_ifs with hbusy
  · rw [answer_refuse]; rfl
  · rw [State.popped_withPack, State.popped_free, answer_ok_popped]; rfl

/-- Settles O28: PACK by its one check, STOP-PACK along the pack state and the move in flight (R48). -/
theorem packStartsAndStops : Obligations.PackStartsAndStops := by
  refine ⟨fun s x r rest htake hcode hpay => exec_pack_taken htake hcode hpay,
    fun s x y r rest htake hcode hpay => ?_⟩
  rw [exec_stopPack, execStopPack, State.serve_eq (code := Code.stopPack) htake hcode (by simp [hpay])]
  simp only [State.popped_pack]
  refine ⟨fun hidle => ?_, fun hrunning hstill hlink => ?_, fun hrunning hmoving => ?_, fun hstopping => ?_⟩
  · simp only [hidle, answer_refuse]; rfl
  · simp only [hrunning, hstill, State.popped_endPack hlink, answer_ok_popped, State.endPack_of_link hlink]; rfl
  · obtain ⟨m, hm⟩ := Option.ne_none_iff_exists'.1 hmoving
    simp only [hrunning, hm, State.popped_withPack, answer_ok_popped]; rfl
  · simp only [hstopping, answer_ok_same]; rfl

end Sys2Proof.Machine
end

section
/-! PROOFS. Lanes and gangs: the owner's requests TIMING (R68, R69) and SET-CONTROL (R73), and the CTL pin (R57). -/

namespace Sys2Proof.Machine

theorem exec_timing (x : LinkId) (s : State) : exec (.timing x) s = execTiming x s := by rfl

theorem exec_setControl (x : LinkId) (s : State) : exec (.setControl x) s = execSetControl x s := by rfl

/-! ## The checks that every request of an owner begins with (R61) -/

/-- The gang that a request's byte names stands in the slot of that number. -/
theorem State.gang_of_gangAt {s : State} {n : Nat} {g : GangId} {G : Gang} (h : s.gangAt n = some (g, G)) :
    s.gang g = some G := by
  unfold State.gangAt at h
  split at h
  · simp only [Option.map_eq_some_iff, Prod.mk.injEq] at h
    obtain ⟨G', hgang, rfl, rfl⟩ := h
    exact hgang
  · contradiction

/-- A request of an owner that names no formed gang. -/
theorem answer_ownedGang_absent {s : State} {p : List Byte} (h : s.gangAt (byteAt p 0) = none) (x : LinkId)
    (r : Request) (rest : List Request) (act : GangId → Gang → Answer) :
    answer x r (s.popped x rest) (ownedGang x p (s.popped x rest) act) = s.answered x r rest [7#8] := by
  rw [ownedGang, State.popped_gangAt, h]
  exact answer_refuse s x r rest .noSuchGang

/-- A request that names a formed gang is refused to every link but the owner. -/
theorem answer_ownedGang_formed {s : State} {p : List Byte} {g : GangId} {G : Gang}
    (h : s.gangAt (byteAt p 0) = some (g, G)) (x : LinkId) (r : Request) (rest : List Request)
    (act : GangId → Gang → Answer) :
    answer x r (s.popped x rest) (ownedGang x p (s.popped x rest) act) =
      if G.owner ≠ x then s.answered x r rest [6#8] else answer x r (s.popped x rest) (act g G) := by
  simp only [ownedGang, State.popped_gangAt, h]
  split_ifs
  · exact answer_refuse s x r rest .notOwner
  · rfl

/-! ## Changes of a gang beside the taking of a request -/

/-- A write of a gang's slot and the taking of a request do not touch each other. -/
theorem State.popped_setGang (s : State) (x : LinkId) (rest : List Request) (g : GangId) (o : Option Gang) :
    (s.popped x rest).setGang g o = (s.setGang g o).popped x rest := by
  cases x <;> rfl

/-- On a formed gang, a change of its CTL level is one write of its slot. -/
theorem State.setCtl_of_gang {s : State} {g : GangId} {G : Gang} (h : s.gang g = some G) (level : Bool) :
    s.setCtl g level = s.setGang g (some { G with ctl := level }) := by
  simp [State.setCtl, State.modGang, h]

/-! ## Representable times (R68) -/

/-- The representable set of R68: in each decade the multiples of its unit. -/
def representable (m : Nat) : Prop :=
  (∃ k, 1 ≤ k ∧ k ≤ 99 ∧ m = 100 * k) ∨ (∃ k, 10 ≤ k ∧ k ≤ 99 ∧ m = 1000 * k) ∨
    (∃ k, 10 ≤ k ∧ k ≤ 99 ∧ m = 10000 * k) ∨ ∃ k, 10 ≤ k ∧ k ≤ 99 ∧ m = 100000 * k

theorem le_roundUp {step : Nat} (hstep : 0 < step) (t : Nat) : t ≤ roundUp step t := by
  have hdiv := Nat.lt_mul_div_succ (t + step - 1) hstep
  rw [Nat.mul_succ] at hdiv
  rw [roundUp]
  omega

/-- Rounding up stays at or below every multiple that is not less than the number rounded. -/
theorem roundUp_le_of_dvd {step t m : Nat} (hstep : 0 < step) (hdvd : step ∣ m) (h : t ≤ m) : roundUp step t ≤ m := by
  obtain ⟨k, rfl⟩ := hdvd
  refine Nat.mul_le_mul_left step (Nat.lt_succ_iff.1 ((Nat.div_lt_iff_lt_mul hstep).2 ?_))
  rw [Nat.succ_mul, Nat.mul_comm k]
  omega

theorem le_appliedTime (t : Nat) : t ≤ appliedTime t := by
  unfold appliedTime
  split_ifs <;> exact le_roundUp (by decide) t

/-- A time in range is rounded to a multiple that its own decade holds, or that begins the next. -/
theorem representable_appliedTime {t : Nat} (hlow : 1 ≤ t) (hhigh : t ≤ 9900000) : representable (appliedTime t) := by
  unfold appliedTime
  split_ifs with h100 h1000 h10000
  · exact .inl ⟨_, by omega, by omega, rfl⟩
  · exact .inr (.inl ⟨_, by omega, by omega, rfl⟩)
  · exact .inr (.inr (.inl ⟨_, by omega, by omega, rfl⟩))
  · exact .inr (.inr (.inr ⟨_, by omega, by omega, rfl⟩))

/-- A member at or above a time lies in the time's decade or a later one, so the unit of that decade divides it. -/
theorem appliedTime_le_of_representable {t m : Nat} (hm : representable m) (h : t ≤ m) : appliedTime t ≤ m := by
  unfold representable at hm
  unfold appliedTime
  split_ifs with h100 h1000 h10000 <;> exact roundUp_le_of_dvd (by decide) (by omega) h

/-! ## TIMING (R69) -/

/-- The range check of TIMING fails exactly when one of the four fields is outside its range. -/
theorem not_timingFieldsOk_iff (p : List Byte) :
    (!timingFieldsOk p) = true ↔
      (be32 p 1 = 0 ∨ 9900000 < be32 p 1) ∨ (be32 p 5 = 0 ∨ 9900000 < be32 p 5) ∨
        (be32 p 9 = 0 ∨ 9900000 < be32 p 9) ∨ 60000 < be16 p 13 := by
  simp only [timingFieldsOk, timeInRange, Bool.not_eq_true', Bool.and_eq_false_iff, decide_eq_false_iff_not]
  omega

/-- CLOCKED admits a timing exactly when settle and pulse are each less than the period (R70). -/
theorem not_clockedTimingOk_iff (t : GangTiming) :
    (!clockedTimingOk t) = true ↔ ¬(t.settle < t.period ∧ t.pulse < t.period) := by
  simp only [clockedTimingOk, Bool.not_eq_true', decide_eq_false_iff_not]

theorem queue_not_isEmpty_iff (G : Gang) : (!G.queue.isEmpty) = true ↔ G.queue ≠ [] := by
  simp only [Bool.not_eq_true', List.isEmpty_eq_false_iff]

/-- Settles O36: the checks of R69 in their order and one write of the gang's slot, then the laws of rounding up. -/
theorem timingAppliesTheLeastMember : Obligations.TimingAppliesTheLeastMember := by
  refine ⟨fun s x r rest htake hcode hlen => ?_, fun t hlow hhigh => ?_⟩
  · rw [exec_timing, execTiming, State.serve_eq (code := Code.timing) htake hcode (by simp [hlen])]
    cases hgang : s.gangAt (byteAt r.payload 0) with
    | none => exact congrArg _ (answer_ownedGang_absent hgang ..)
    | some e =>
      obtain ⟨g, G⟩ := e
      simp only [answer_ownedGang_formed hgang, not_timingFieldsOk_iff, queue_not_isEmpty_iff, not_clockedTimingOk_iff,
        readTiming]
      split_ifs with howner hfield hbusy hconflict
      · rfl
      · rw [answer_refuse]; rfl
      · rw [answer_refuse]; rfl
      · rw [answer_refuse]; rfl
      · rw [State.popped_setGang, answer_ok_popped]; rfl
  · exact ⟨representable_appliedTime hlow hhigh, le_appliedTime t, fun m => appliedTime_le_of_representable⟩

/-! ## SET-CONTROL (R73) and the CTL pin (R57) -/

/-- A free lane's CTL pin is low (R55). -/
theorem State.ctlPin_free {s : State} {i : LaneId} (h : s.lanes[i].gang = none) : s.ctlPin i = false := by
  rw [State.ctlPin, State.gangOfLane_free h]

/-- The CTL pin of a gang's first lane shows the gang's CTL level under its polarity; on its other lanes it is low. -/
theorem State.ctlPin_of_gang {s : State} {i : LaneId} {g : GangId} {G : Gang} (h : s.lanes[i].gang = some g)
    (hG : s.gang g = some G) : s.ctlPin i = if i = G.first then G.ctl ^^ G.cfg.ctlNeg else false := by
  simp only [State.ctlPin, State.gangOfLane_of h hG, eq_comm (a := i)]

/-- Settles O40: the checks of R73 in their order and one write of the gang's slot, then the pin of each lane. -/
theorem setControlSetsCtl : Obligations.SetControlSetsCtl := by
  refine ⟨fun s x r rest n level htake hcode hpay => ?_,
    fun s i => ⟨State.ctlPin_free, fun g G => State.ctlPin_of_gang⟩⟩
  have hbyte : byteAt r.payload 0 = n.toNat := by rw [hpay]; rfl
  have hlevel : byteAt r.payload 1 = level.toNat := by rw [hpay]; rfl
  have hctl : (level.toNat == 1) = (level == 1#8) := by
    rw [Bool.eq_iff_iff, beq_iff_eq, beq_iff_eq, BitVec.toNat_eq]; rfl
  rw [exec_setControl, execSetControl, State.serve_eq (code := Code.setControl) htake hcode (by simp [hpay])]
  cases hgang : s.gangAt n.toNat with
  | none => exact congrArg _ (answer_ownedGang_absent (by rw [hbyte, hgang]) ..)
  | some e =>
    obtain ⟨g, G⟩ := e
    simp only [answer_ownedGang_formed (hbyte ▸ hgang), hlevel, hctl]
    split_ifs with howner hfield hmode
    · rfl
    · rw [answer_refuse]; rfl
    · rw [answer_refuse]; rfl
    · have hG : (s.popped x rest).gang g = some G := by rw [State.popped_gang, State.gang_of_gangAt hgang]
      rw [State.setCtl_of_gang hG, State.popped_setGang, answer_ok_popped, u8_toNat]; rfl

end Sys2Proof.Machine
end

section
/-! PROOFS. Jobs and gang queues: the requests SUBMIT (R117-R119), PAUSE (R130) and RESUME (R132). -/

namespace Sys2Proof.Machine

theorem exec_submit (x : LinkId) (s : State) : exec (.submit x) s = execSubmit x s := by rfl

/-- PAUSE begins with the checks of every request of an owner (R61, R130). -/
theorem exec_pause (x : LinkId) (s : State) :
    exec (.pause x) s = .next (s.serve x Code.pause (fun p => p.length == 1) fun p s =>
      ownedGang x p s fun g G => .ok ((s.pauseGang g G).runByte g) (s.pauseGang g G)) := by rfl

/-- RESUME begins with the checks of every request of an owner (R61, R132). -/
theorem exec_resume (x : LinkId) (s : State) :
    exec (.resume x) s = .next (s.serve x Code.resume (fun p => p.length == 1) fun p s =>
      ownedGang x p s fun g G => .ok (u8 RunState.running.num) (s.resumeGang g G)) := by rfl

/-! ## SUBMIT (R117-R119) -/

@[simp] theorem State.popped_gangs (s : State) (x : LinkId) (rest : List Request) :
    (s.popped x rest).gangs = s.gangs := by
  simp [State.popped]

@[simp] theorem State.popped_nextId (s : State) (x : LinkId) (rest : List Request) :
    (s.popped x rest).nextId = s.nextId := by
  simp [State.popped]

@[simp] theorem State.popped_issueId (s : State) (x : LinkId) (rest : List Request) :
    (s.popped x rest).issueId = s.issueId := by
  rw [State.issueId, State.liveIds, State.popped_liveJobs, State.popped_nextId]; rfl

/-- A handle that resolves names the block in its slot. -/
theorem State.block_of_resolve {s : State} {slot : Nat} {gen : Byte} {i : SlotId} {b : Block}
    (h : s.resolve slot gen = some (i, b)) : s.block i = some b := by
  unfold State.resolve at h
  split_ifs at h
  simp only [Option.map_eq_some_iff, Prod.mk.injEq] at h
  obtain ⟨b', hblock, rfl, rfl⟩ := h
  exact hblock

/-- BAD_FIELD of SUBMIT, field by field. -/
theorem SubmitFields.not_inRange_iff (f : SubmitFields) :
    (!f.inRange) = true ↔
      1 < f.dir ∨ 131071 < f.offset ∨ f.repeats = 0 ∨ (1 < f.repeats ∧ f.dir = 1) ∨ 1 < f.afterOk ∨
        1 < f.quiet := by
  simp only [SubmitFields.inRange, Bool.not_eq_true', decide_eq_false_iff_not]
  omega

/-- RANGE_OUTSIDE_BLOCK of SUBMIT (R118). -/
theorem not_rangeOk_iff (size offset width beats : Nat) :
    (!rangeOk size offset width beats) = true ↔ beats = 0 ∨ size < offset + beats * width := by
  simp only [rangeOk, Bool.not_eq_true', decide_eq_false_iff_not]
  omega

/-- On a formed gang and a block that is present, acceptance (R119) is one write of each and of the id counter, and the
activation of the job in an empty queue. -/
theorem State.accept_eq {s : State} {g : GangId} {G : Gang} {J : Job} {b : Block} (hG : s.gang g = some G)
    (hb : s.block J.slot = some b) (wasEmpty : Bool) :
    s.accept g J wasEmpty =
      let queued : State :=
        { s with
          nextId := nextCandidate J.id
          dir := s.dir.set J.slot ⟨s.dir[J.slot].gen, some { b with refs := b.refs + 1 }⟩
          gangs := s.gangs.set g (some { G with queue := G.queue ++ [J] }) }
      if wasEmpty then queued.activate g else queued := by
  have hG' : s.gangs[g] = some G := hG
  have hb' : s.dir[J.slot].block = some b := hb
  simp only [State.accept, State.modBlock, State.setBlock, State.modGang, State.setGang, State.gang, State.block, hG',
    hb', Option.map_some]

/-- The checks of R117 in their order, once gang and handle resolve; the last one passed, the job is accepted. -/
theorem submitRule_resolved {s : State} {p : List Byte} {g : GangId} {G : Gang} {i : SlotId} {b : Block}
    (hgang : s.gangAt (byteAt p 0) = some (g, G)) (hres : s.resolveAt p 2 = some (i, b)) (x : LinkId) {beats : Nat}
    (hbeats : resolveBeats b.size (be32 p 4) G.width (be16 p 8) = beats) :
    submitRule x p s =
      if G.owner ≠ x then .refuse .notOwner
      else if 1 < byteAt p 1 ∨ 131071 < be32 p 4 ∨ byteAt p 10 = 0 ∨ (1 < byteAt p 10 ∧ byteAt p 1 = 1) ∨
          1 < byteAt p 11 ∨ 1 < byteAt p 12 then .refuse .badField
      else if G.cfg.mode = .manual then .refuse .modeConflict
      else if beats = 0 ∨ b.size < be32 p 4 + beats * G.width then .refuse .rangeOutsideBlock
      else if 6 ≤ G.queue.length then .refuse .queueFull
      else if byteAt p 11 = 1 ∧ G.queue = [] ∧ G.last ≠ .done then .refuse .chainBroken
      else
        .ok (u16 s.issueId ++ u16 beats ++ u8 (G.queue.length + 1))
          (s.accept g (newJob s.issueId (readSubmit p) i s.dir[i].gen beats) G.queue.isEmpty) := by
  subst hbeats
  simp only [submitRule, hgang, hres, SubmitFields.not_inRange_iff, not_rangeOk_iff, List.isEmpty_iff, queueCap,
    readSubmit, newJob]

/-- Settles O41: the checks of R117 in their order, then the acceptance of R119 on the state without the request. -/
theorem submitChecksAndAccepts : Obligations.SubmitChecksAndAccepts := by
  intro s x r rest htake hcode hlen p direction offset repeats refused
  have hexec : exec (.submit x) s = .next (answer x r (s.popped x rest) (submitRule x p (s.popped x rest))) := by
    rw [exec_submit, execSubmit, State.serve_eq (code := Code.submit) htake hcode (by simp [hlen])]
  have hrefused : ∀ st : Status, submitRule x p (s.popped x rest) = .refuse st → refused st.code := by
    intro st hrule
    rw [hrule, answer_refuse] at hexec
    exact hexec
  cases hgang : s.gangAt (byteAt p 0) with
  | none => exact hrefused .noSuchGang (by simp only [submitRule, State.popped_gangAt, hgang])
  | some e =>
    obtain ⟨g, G⟩ := e
    cases hres : s.resolve (byteAt p 2) (p.getD 3 0x00#8) with
    | none =>
      have hhandle : s.resolveAt p 2 = none := hres
      exact hrefused .noSuchBlock (by
        simp only [submitRule, State.popped_gangAt, State.popped_resolveAt, hgang, hhandle])
    | some e =>
      obtain ⟨i, b⟩ := e
      dsimp -zeta only
      intro beats
      have hrule := submitRule_resolved (s := s.popped x rest) ((State.popped_gangAt ..).trans hgang)
        ((State.popped_resolveAt ..).trans hres) x (beats := beats) rfl
      split_ifs at hrule with howner hfield hmode hrange hfull hchain
      · rw [if_pos howner]
        exact hrefused _ hrule
      · rw [if_neg howner, if_pos hfield]
        exact hrefused _ hrule
      · rw [if_neg howner, if_neg hfield, if_pos hmode]
        exact hrefused _ hrule
      · rw [if_neg howner, if_neg hfield, if_neg hmode, if_pos hrange]
        exact hrefused _ hrule
      · rw [if_neg howner, if_neg hfield, if_neg hmode, if_neg hrange, if_pos hfull]
        exact hrefused _ hrule
      · rw [if_neg howner, if_neg hfield, if_neg hmode, if_neg hrange, if_neg hfull, if_pos hchain]
        exact hrefused _ hrule
      · rw [if_neg howner, if_neg hfield, if_neg hmode, if_neg hrange, if_neg hfull, if_neg hchain, hexec, hrule,
          State.accept_eq ((State.popped_gang ..).trans (State.gang_of_gangAt hgang))
            ((State.popped_block ..).trans (State.block_of_resolve hres))]
        simp only [State.popped_dir, State.popped_gangs, State.popped_issueId, List.isEmpty_iff, answer, hcode]
        rfl

/-! ## PAUSE (R130) -/

/-- The byte of a formed gang's run state. -/
theorem State.runByte_eq {s : State} {g : GangId} {G : Gang} (h : s.gang g = some G) : s.runByte g = u8 G.run.num := by
  rw [State.runByte, h]; rfl

/-- PAUSE of a gang that is PAUSING or PAUSED changes nothing. -/
theorem State.pauseGang_of_ne_running {G : Gang} (h : G.run ≠ .running) (s : State) (g : GangId) :
    s.pauseGang g G = s := by
  cases hrun : G.run with
  | running => exact absurd hrun h
  | pausing | paused => simp only [State.pauseGang, hrun]

/-- PAUSE with a beat in flight lets the beat go on. -/
theorem State.pauseGang_of_inFlight {s : State} {g : GangId} {G : Gang} (hG : s.gang g = some G)
    (hrun : G.run = .running) (hflight : G.inFlight = true) :
    s.pauseGang g G = s.setGang g (some { G with run := .pausing }) := by
  simp only [State.pauseGang, hrun, hflight, if_true, State.modGang_eq hG]

/-- A queue whose active job, if it was RUNNING, is PAUSED. -/
def pauseHead : List Job → List Job
  | [] => []
  | J :: later => { J with state := if J.state = .running then .paused else J.state } :: later

/-- PAUSE without a beat in flight is at once complete. -/
theorem State.pauseGang_of_not_inFlight {s : State} {g : GangId} {G : Gang} (hG : s.gang g = some G)
    (hrun : G.run = .running) (hflight : G.inFlight = false) :
    s.pauseGang g G = s.setGang g (some { G with run := .paused, queue := pauseHead G.queue }) := by
  cases hqueue : G.queue with
  | nil => simp [State.pauseGang, hrun, hflight, State.modGang_eq hG, hqueue, pauseHead]
  | cons J later =>
    simp only [State.pauseGang, hrun, hflight, State.modGang_eq hG, hqueue, State.setGang_setJobState,
      pauseHead, Bool.false_eq_true, if_false]
    split_ifs <;> rfl

/-- Without a beat state no beat is in flight. -/
theorem Gang.inFlight_eq (G : Gang) : G.inFlight = (G.beat.map Beat.inFlight).getD false := by
  cases hbeat : G.beat <;> simp [Gang.inFlight, hbeat]

/-! ## RESUME (R132) -/

/-- RESUME of a RUNNING gang changes nothing. -/
theorem State.resumeGang_of_running {G : Gang} (h : G.run = .running) (s : State) (g : GangId) :
    s.resumeGang g G = s := by
  simp only [State.resumeGang, h]

/-- RESUME of a PAUSING gang, or of a PAUSED one whose active job is not PAUSED, sets the run state alone. -/
theorem State.resumeGang_of_no_paused_job {s : State} {g : GangId} {G : Gang} (hG : s.gang g = some G)
    (hrun : G.run ≠ .running) (hjob : G.run = .paused → ∀ J ∈ G.queue.head?, J.state ≠ .paused) :
    s.resumeGang g G = s.setGang g (some { G with run := .running }) := by
  cases hstate : G.run with
  | running => exact absurd hstate hrun
  | pausing => simp only [State.resumeGang, hstate, State.modGang_eq hG]
  | paused =>
    simp only [State.resumeGang, hstate, State.modGang_eq hG]
    cases hqueue : G.queue with
    | nil => rfl
    | cons J later => exact if_neg (hjob hstate J (by rw [hqueue]; rfl))

/-- RESUME of a PAUSED gang with a PAUSED active job lets the job run, and its beat begins if it may. -/
theorem State.resumeGang_of_paused_job {s : State} {g : GangId} {G : Gang} {J : Job} {later : List Job}
    (hG : s.gang g = some G) (hrun : G.run = .paused) (hqueue : G.queue = J :: later) (hjob : J.state = .paused) :
    s.resumeGang g G =
      (s.setGang g (some { G with run := .running, queue := { J with state := .running } :: later })).tryBegin g := by
  simp only [State.resumeGang, hrun, State.modGang_eq hG, hqueue, hjob, if_true, State.setGang_setJobState]

/-- The answer of a RESUME that sets the run state alone. -/
theorem answer_resumed {s : State} {x : LinkId} {rest : List Request} {g : GangId} {G : Gang}
    (hG : (s.popped x rest).gang g = some G) (hrun : G.run ≠ .running)
    (hjob : G.run = .paused → ∀ J ∈ G.queue.head?, J.state ≠ .paused) (r : Request) :
    answer x r (s.popped x rest) (.ok (u8 RunState.running.num) ((s.popped x rest).resumeGang g G)) =
      (s.setGang g (some { G with run := .running })).answered x r rest [0#8, 0#8] := by
  rw [State.resumeGang_of_no_paused_job hG hrun hjob, State.popped_setGang, answer_ok_popped]
  rfl

/-- Settles O45: the checks of R61, then each request along the run state of the gang (R130, R132). -/
theorem pauseAndResumeSetTheRunState : Obligations.PauseAndResumeSetTheRunState := by
  refine ⟨fun s x r rest n htake hcode hpay => ?_, fun s x r rest n htake hcode hpay => ?_⟩
  · have hbyte : byteAt r.payload 0 = n.toNat := by rw [hpay]; rfl
    rw [exec_pause, State.serve_eq (code := Code.pause) htake hcode (by simp [hpay])]
    cases hgang : s.gangAt n.toNat with
    | none => exact congrArg _ (answer_ownedGang_absent (by rw [hbyte, hgang]) ..)
    | some e =>
      obtain ⟨g, G⟩ := e
      have hG : (s.popped x rest).gang g = some G := (State.popped_gang ..).trans (State.gang_of_gangAt hgang)
      rw [answer_ownedGang_formed (hbyte ▸ hgang)]
      refine congrArg _ (if_congr Iff.rfl rfl ?_)
      cases hrun : G.run with
      | running =>
        cases hflight : G.inFlight with
        | true =>
          rw [State.pauseGang_of_inFlight hG hrun hflight, State.runByte_eq (State.setGang_gang_self ..),
            State.popped_setGang, answer_ok_popped]
          exact (if_pos (G.inFlight_eq ▸ hflight)).symm
        | false =>
          rw [State.pauseGang_of_not_inFlight hG hrun hflight, State.runByte_eq (State.setGang_gang_self ..),
            State.popped_setGang, answer_ok_popped]
          exact (if_neg (ne_true_of_eq_false (G.inFlight_eq ▸ hflight))).symm
      | pausing | paused =>
        rw [State.pauseGang_of_ne_running (by rw [hrun]; decide), State.runByte_eq hG, hrun, answer_ok_popped]
        rfl
  · have hbyte : byteAt r.payload 0 = n.toNat := by rw [hpay]; rfl
    rw [exec_resume, State.serve_eq (code := Code.resume) htake hcode (by simp [hpay])]
    cases hgang : s.gangAt n.toNat with
    | none => exact congrArg _ (answer_ownedGang_absent (by rw [hbyte, hgang]) ..)
    | some e =>
      obtain ⟨g, G⟩ := e
      have hG : (s.popped x rest).gang g = some G := (State.popped_gang ..).trans (State.gang_of_gangAt hgang)
      rw [answer_ownedGang_formed (hbyte ▸ hgang)]
      refine congrArg _ (if_congr Iff.rfl rfl ?_)
      cases hrun : G.run with
      | running =>
        rw [State.resumeGang_of_running hrun, answer_ok_popped]
        rfl
      | pausing => exact answer_resumed hG (by simp [hrun]) (by simp [hrun]) ..
      | paused =>
        cases hqueue : G.queue with
        | nil => exact (answer_resumed hG (by simp [hrun]) (by simp [hqueue]) ..).trans (by rw [hqueue])
        | cons J later =>
          by_cases hjob : J.state = .paused
          · rw [State.resumeGang_of_paused_job hG hrun hqueue hjob]
            simp only [answer, hcode, hjob, if_true]
            rfl
          · exact (answer_resumed hG (by simp [hrun]) (by simp [hqueue, hjob]) ..).trans
              (by rw [hqueue]; exact (if_neg hjob).symm)

end Sys2Proof.Machine
end

section
/-! PROOFS. The device area: HELLO (R165). -/

namespace Sys2Proof.Machine

theorem exec_hello (x : LinkId) (s : State) : exec (.hello x) s = execHello x s := by rfl

/-- The permitted payload of a request without fields is the empty one (R161). -/
theorem noFields_iff {p : List Byte} : noFields p = true ↔ p = [] := List.isEmpty_iff

/-- The reply's constants in bytes, most significant first; the link id alone depends on the link. -/
theorem helloFields_bytes (x : LinkId) :
    helloFields x =
      [0x24#8, 0x10#8, 0x41#8, BitVec.ofNat 8 (linkNum x), 0x08#8, 0x00#8, 0x0A#8, 0x08#8, 0x30#8, 0x06#8, 0xE8#8] := by
  simp [helloFields, u8, u16]

/-- Settles O14: steps 1 and 2 of R162 are the only checks, and the rule reads nothing of the state. -/
theorem helloReportsThePart : Obligations.HelloReportsThePart := by
  intro s x r rest htake hcode
  rw [exec_hello, execHello]
  by_cases hpay : r.payload = []
  · rw [if_pos hpay, State.serve_eq (code := Code.hello) htake hcode (noFields_iff.2 hpay), answer_ok_same,
      helloFields_bytes]
    cases x <;> rfl
  · have hlength : noFields r.payload = false := Bool.eq_false_iff.2 (mt noFields_iff.1 hpay)
    rw [if_neg hpay, State.serve_badLength (code := Code.hello) htake hcode hlength]
    rfl

end Sys2Proof.Machine
end

section
/-! PROOFS. What a step can do: every command is one of the cases of `StepCase`, and a request or an event that acts on
the machine behind the links has one of the effects of `Effect`. Every invariant is derived from these two. -/

namespace Sys2Proof.Machine

/-! ## The effects of requests and events behind the links -/

/-- One effect on the block store and the pack unit, with the checks that have been passed before it. -/
inductive StoreEffect : State → State → Prop
  | created (s : State) {i : SlotId} {name : List Byte} {size base : Nat} {free : List Extent} (fill : Byte)
      (hslot : s.freeSlot = some i) (hsize : size ≠ 0) (hidle : s.pack.state = .idle)
      (hfit : allocate (granulesOf size) s.free = some (base, free)) : StoreEffect s (s.create i name size base free fill)
  | destroyed (s : State) {i : SlotId} {b : Block} (hb : s.block i = some b) (hready : b.dest = none)
      (hrefs : b.refs = 0) : StoreEffect s (s.destroy i b)
  | written (s : State) (a : Nat) (bs : List Byte) : StoreEffect s { s with store := s.store.setBytes a bs }
  | filled (s : State) (a n : Nat) (b : Byte) : StoreEffect s { s with store := s.store.fill a n b }
  | packStarted (s : State) (x : LinkId) (hidle : s.pack.state = .idle) :
      StoreEffect s
        { s with
          pack := { s.pack with state := .running, link := some x, cursor := 0, moves := 0, barriers := 0 } }
  | packStopping (s : State) (hrun : s.pack.state = .running) (hmove : s.pack.move.isSome = true) :
      StoreEffect s { s with pack := { s.pack with state := .stopping } }
  | packEnded (s : State) (stopped : Bool) (hrun : s.pack.state = .running) (hmove : s.pack.move = none) :
      StoreEffect s (s.endPack stopped)
  | visited (s : State) {i : SlotId} {b : Block} (hrun : s.pack.state = .running) (hmove : s.pack.move = none)
      (hb : s.visitChoice = some (i, b)) : StoreEffect s (s.visitBlock i b)
  | moved (s : State) {m : Move} (hm : s.pack.move = some m) :
      StoreEffect s
        (if ((s.finishMove m).evaluate m.slot).pack.state = .stopping then
          ((s.finishMove m).evaluate m.slot).endPack true
        else (s.finishMove m).evaluate m.slot)

/-- One effect on the lanes, the gangs and the jobs, with the checks that have been passed before it. -/
inductive GangEffect : State → State → Prop
  | formed (s : State) (x : LinkId) {first : LaneId} {width : Nat} (watched : Bool) {g : GangId}
      (hfit : first.val + width ≤ 10) (hlanes : s.laneTaken first.val width = false) (hfree : s.freeGang = some g) :
      GangEffect s (s.formGang g (newGang x first width watched))
  | dissolved (s : State) {g : GangId} {G : Gang} (hG : s.gang g = some G) (hqueue : G.queue = []) :
      GangEffect s (s.dissolve g G)
  | configured (s : State) {g : GangId} {G : Gang} (c : GangConfig) (hG : s.gang g = some G) (hqueue : G.queue = []) :
      GangEffect s (s.configureGang g G c)
  | timed (s : State) {g : GangId} {G : Gang} (time : GangTiming) (hG : s.gang g = some G) (hqueue : G.queue = []) :
      GangEffect s (s.setGang g (some { G with time := time }))
  | latched (s : State) {g : GangId} {G : Gang} (bytes : List Byte) (hG : s.gang g = some G)
      (hmode : G.cfg.mode = .manual) : GangEffect s (s.latchLines G bytes (G.cfg.manualOut && !s.heldOff G))
  | sensed (s : State) (board : Board) : GangEffect s (s.senseBoard board)
  | control (s : State) {g : GangId} {G : Gang} (level : Bool) (hG : s.gang g = some G)
      (hmode : G.cfg.mode = .manual) : GangEffect s (s.setCtl g level)
  | accepted (s : State) {g : GangId} {G : Gang} {b : Block} (f : SubmitFields) (slot : SlotId) (gen : Byte)
      (beats : Nat) (hG : s.gang g = some G) (hb : s.block slot = some b) (hroom : G.queue.length < queueCap) :
      GangEffect s (s.accept g (newJob s.issueId f slot gen beats) G.queue.isEmpty)
  | cancelled (s : State) {id : Nat} {f : Found} (hf : s.findJob id = some f) : GangEffect s (s.cancelJob f)
  | halted (s : State) {g : GangId} {G : Gang} {J : Job} {behind : List Job} (hG : s.gang g = some G)
      (hqueue : G.queue = J :: behind) : GangEffect s (s.haltGang g J behind)
  | paused (s : State) {g : GangId} {G : Gang} (hG : s.gang g = some G) : GangEffect s (s.pauseGang g G)
  | resumed (s : State) {g : GangId} {G : Gang} (hG : s.gang g = some G) : GangEffect s (s.resumeGang g G)
  | flgChanged (s : State) (i : LaneId) (high : Bool) (board : Board) :
      GangEffect s (((s.setFlgPin i high).senseBoard board).flgSeen i)
  | holdChanged (s : State) (i : LaneId) (high : Bool) : GangEffect s ((s.setHoldPin i high).holdSeen i s)
  | settled (s : State) (g : GangId) (board : Board) {G : Gang} {J : Job} {later : List Job} {B : Beat}
      (hactive : s.Active g G J later B) (hdue : settleDue G J B = true) :
      GangEffect s ((s.senseBoard board).settleDone g)
  | pulseEnded (s : State) (g : GangId) : GangEffect s (s.pulseDone g)
  | periodEnded (s : State) (g : GangId) : GangEffect s (s.periodDone g)
  | expired (s : State) (g : GangId) : GangEffect s (s.beatExpired g)

/-- One effect on the machine behind the links. -/
inductive Effect (s : State) : State → Prop
  | same : Effect s s
  | store {t : State} (h : StoreEffect s t) : Effect s t
  | gang {t : State} (h : GangEffect s t) : Effect s t

/-- What a rule of a request answers has an effect, or is a refusal. -/
def Answer.Carries (s : State) : Answer → Prop
  | .refuse _ => True
  | .ok _ t => Effect s t

/-! ## The cases of a step -/

/-- What one command can do. -/
inductive StepCase (s : State) : State → Prop
  | idle : StepCase s s
  | refused {x : LinkId} {r : Request} {rest : List Request} (htake : s.Takes x r rest) (payload : List Byte) :
      StepCase s (s.answered x r rest payload)
  | carried {x : LinkId} {r : Request} {rest : List Request} {u : State} (htake : s.Takes x r rest)
      (payload : List Byte) (heffect : Effect (s.popped x rest) u) :
      StepCase s (u.pushReply x ⟨r.tag, r.code, payload⟩)
  | syncHeld {x : LinkId} {r : Request} {rest : List Request} (htake : s.Takes x r rest) (g : GangId) (timeout : Nat) :
      StepCase s ((s.popped x rest).holdSync x r.tag g timeout)
  | engineRestarted {x : LinkId} {r : Request} {rest : List Request} (htake : s.Takes x r rest) :
      StepCase s ((s.popped x rest).doRestartEngine x r)
  | detached {x : LinkId} {r : Request} {rest : List Request} (htake : s.Takes x r rest) (reply : Reply)
      (body : NoticeBody) : StepCase s ((((s.popped x rest).linkReset x).pushReply x reply).notify x body)
  | broken (body : NoticeBody) (hready : s.mode = .ready) :
      StepCase s (({ s.linkReset .b with silent := true } : State).notify .b body)
  | effect {t : State} (hready : s.mode = .ready) (heffect : Effect s t) : StepCase s t
  | syncAnswered (x : LinkId) (payload : GangId → List Byte) :
      StepCase s (s.resolveSyncOf x (fun _ => true) payload)
  | byteStored (x : LinkId) (b : Byte) : StepCase s ((s.exchange x).storeByte x b)
  | exchanged (x : LinkId) : StepCase s (s.exchange x)
  | oversized (x : LinkId) : StepCase s (((s.exchange x).endFrame x).linkFault x .oversize)
  | completed (x : LinkId) (frame : List Byte) : StepCase s (((s.exchange x).endFrame x).frameComplete x frame)
  | gapEnded : StepCase s (({ s with gap := .stopped } : State).truncate .b)
  | deselected (frame : Bool) :
      StepCase s
        (if frame then ({ s with ssel := false, sdo := none } : State).truncate .a
        else { s with ssel := false, sdo := none })
  | begun (x : LinkId) : StepCase s (s.modLink x Link.begun)
  | sent (x : LinkId) : StepCase s (s.modLink x fun l => { l with outbound := none })
  | lineHigh : StepCase s { s with silent := false }
  | restarted (rsel : Fin 4) {mode : PartMode} {started resetnHigh : Bool} {store : Mem} {rate : Rate}
      {sdo : Option Byte} (hmode : mode ≠ .ready) (hstore : store = s.store ∨ store = [])
      (hsdo : sdo = s.sdo ∨ sdo = none) :
      StepCase s
        { s.fullRestart rsel with
          mode := mode, started := started, resetnHigh := resetnHigh, store := store, rate := rate, sdo := sdo }
  | resetnMoved (level : Bool) : StepCase s { s with resetnHigh := level }
  | startupEnded (body : NoticeBody) (hmode : s.mode ≠ .ready) :
      StepCase s
        ((({ s with mode := .ready, started := true, store := [] } : State).notify .a body).notify .b body)
  | flgRecorded (i : LaneId) (high : Bool) (board : Board) : StepCase s ((s.setFlgPin i high).senseBoard board)
  | holdRecorded (i : LaneId) (high : Bool) (hmode : s.mode ≠ .ready) : StepCase s (s.setHoldPin i high)

/-! ## Requests -/

/-- A request row does nothing, or acts on the state without the request. -/
theorem State.take_cases {P : State → Prop} {s : State} {x : LinkId} {wanted : Request → Bool}
    {act : Request → State → State} (hsame : P s)
    (hact : ∀ r rest, s.Takes x r rest → wanted r = true → P (act r (s.popped x rest))) : P (s.take x wanted act) := by
  by_cases hcan : s.CanTake x
  · obtain ⟨hready, hintake, hsync, hroom⟩ := hcan
    obtain ⟨r, rest, hr⟩ := List.exists_cons_of_ne_nil hintake
    have htake : s.Takes x r rest := ⟨hready, hr, hsync, hroom⟩
    cases hw : wanted r with
    | true => exact (State.take_eq htake hw act).symm ▸ hact r rest htake hw
    | false => exact (State.take_other htake hw act).symm ▸ hsame
  · exact (State.take_none hcan wanted act).symm ▸ hsame

/-- A refusal, or an effect and its reply. -/
theorem StepCase.of_answer {s : State} {x : LinkId} {r : Request} {rest : List Request} (htake : s.Takes x r rest)
    {a : Answer} (h : a.Carries (s.popped x rest)) : StepCase s (answer x r (s.popped x rest) a) := by
  cases a with
  | refuse st => rw [answer_refuse]; exact .refused htake _
  | ok fields t => exact .carried htake _ h

/-- A request of one code is a step, when its rule has effects. -/
theorem StepCase.of_serve {s : State} {x : LinkId} {code : Byte} {lengthOk : List Byte → Bool}
    {rule : List Byte → State → Answer} (h : ∀ p u, (rule p u).Carries u) : StepCase s (s.serve x code lengthOk rule) := by
  refine State.take_cases .idle fun r rest htake _ => .of_answer htake ?_
  split
  · exact h _ _
  · trivial

/-- A request of an owner carries what its rule carries on the gang. -/
theorem ownedGang_carries {x : LinkId} {p : List Byte} {s : State} {f : GangId → Gang → Answer}
    (h : ∀ g G, s.gang g = some G → (f g G).Carries s) : (ownedGang x p s f).Carries s := by
  unfold ownedGang
  split
  · trivial
  · rename_i g G hgang
    split
    · trivial
    · exact h g G (State.gang_of_gangAt hgang)

theorem defineRule_carries (name : List Byte) (size : Nat) (fill : Byte) (s : State) :
    (defineRule name size fill s).Carries s := by
  unfold defineRule
  split
  · trivial
  · rename_i hfield
    split
    · trivial
    · rename_i hidle
      split
      · trivial
      · split
        · trivial
        · rename_i i hslot
          split
          · trivial
          · split
            · trivial
            · rename_i base free hfit
              exact .store (.created s fill hslot (fun h => hfield (by simp [h])) (not_not.mp hidle) hfit)

theorem deleteRule_carries (p : List Byte) (s : State) : (deleteRule p s).Carries s := by
  unfold deleteRule
  split
  · trivial
  · rename_i i b hres
    split
    · trivial
    · rename_i hdest
      split
      · trivial
      · rename_i hrefs
        exact .store (.destroyed s (State.block_of_resolve hres) (by simpa using hdest) (by omega))

theorem hostData_carries {p : List Byte} {count most : Nat} {access : Block → Bool} {s : State}
    {act : Block → Nat → Answer} (h : ∀ b offset, (act b offset).Carries s) :
    (hostData p count most access s act).Carries s := by
  unfold hostData
  split
  · trivial
  · split_ifs
    · trivial
    · trivial
    · trivial
    · exact h _ _

theorem formRule_carries (x : LinkId) (first width : Nat) (s : State) : (formRule x first width s).Carries s := by
  unfold formRule
  split
  · rename_i hfirst
    split
    · trivial
    · rename_i hfield
      split
      · trivial
      · rename_i hlanes
        split
        · trivial
        · rename_i g hfree
          exact .gang (.formed s x _ (by simp only [not_or] at hfield; dsimp only; omega) (by simpa using hlanes) hfree)
  · trivial

theorem submitRule_carries (x : LinkId) (p : List Byte) (s : State) : (submitRule x p s).Carries s := by
  unfold submitRule
  split
  · trivial
  · rename_i g G hgang
    split
    · trivial
    · rename_i i b hres
      dsimp only
      split_ifs with _ _ _ _ hroom
      iterate 5 trivial
      · trivial
      · exact .gang (.accepted s _ i _ _ (State.gang_of_gangAt hgang) (State.block_of_resolve hres) (by omega))

/-- A rule that looks up a gang first. -/
theorem gangAt_carries {n : Nat} {s : State} {st : Status} {f : GangId → Gang → Answer}
    (h : ∀ g G, s.gang g = some G → (f g G).Carries s) :
    Answer.Carries s (match s.gangAt n with | none => .refuse st | some (g, G) => f g G) := by
  split
  · trivial
  · rename_i g G hgang
    exact h g G (State.gang_of_gangAt hgang)

/-- RESTART of either row, when it is refused (log 6). -/
theorem restartRefusal_carries (p : List Byte) (s : State) : (restartRefusal p).Carries s := trivial

theorem State.popped_fullRestart (s : State) (x : LinkId) (rest : List Request) (rsel : Fin 4) :
    (s.popped x rest).fullRestart rsel = s.fullRestart rsel := by
  cases x <;> rfl

/-! ## Every command: the requests of the device area first -/

theorem StepCase.of_restartEngine (s : State) (x : LinkId) :
    ∀ t, exec (.restartEngine x) s = .next t → StepCase s t := by
  rintro t ⟨⟩
  refine State.take_cases .idle fun r rest htake _ => ?_
  split_ifs
  · exact .engineRestarted htake
  · exact .of_answer htake (restartRefusal_carries _ _)

theorem StepCase.of_restartAll (s : State) (x : LinkId) (rsel : Fin 4) :
    ∀ t, exec (.restartAll x rsel) s = .next t → StepCase s t := by
  rintro t ⟨⟩
  refine State.take_cases .idle fun r rest htake _ => ?_
  split_ifs
  · have hrestart := StepCase.restarted (s := s) rsel (mode := .starting (requestCause x)) (started := s.started)
      (resetnHigh := s.resetnHigh) (store := s.store) (rate := rateOf rsel) (sdo := s.sdo) (by simp) (.inl rfl) (.inl rfl)
    rw [State.beginStartup, State.popped_fullRestart]
    exact hrestart
  · exact .of_answer htake (restartRefusal_carries _ _)

theorem StepCase.of_detach (s : State) (x : LinkId) : ∀ t, exec (.detach x) s = .next t → StepCase s t := by
  rintro t ⟨⟩
  refine State.take_cases .idle fun r rest htake _ => ?_
  split_ifs
  · exact .detached htake _ _
  · exact .of_answer htake trivial

theorem StepCase.of_sync (s : State) (x : LinkId) : ∀ t, exec (.sync x) s = .next t → StepCase s t := by
  rintro t ⟨⟩
  refine State.take_cases .idle fun r rest htake _ => ?_
  split
  · split
    · exact .of_answer htake trivial
    · dsimp only
      split_ifs
      · exact .of_answer htake trivial
      · exact .of_answer htake (.same)
      · exact .syncHeld htake _ _
  · exact .of_answer htake trivial

theorem StepCase.of_unknownRequest (s : State) (x : LinkId) :
    ∀ t, exec (.unknownRequest x) s = .next t → StepCase s t := by
  rintro t ⟨⟩
  exact State.take_cases .idle fun r rest htake _ => .of_answer htake trivial

/-- The rules of the gangs and the jobs area that find a job first. -/
theorem findJob_carries {id : Nat} {s : State} {f : Found → Answer}
    (h : ∀ e, s.findJob id = some e → (f e).Carries s) :
    Answer.Carries s (match s.findJob id with | none => .refuse .noSuchJob | some e => f e) := by
  split
  · trivial
  · exact h _ ‹_›

/-- An event that acts while a condition holds, and has no effect otherwise (log 3). -/
theorem StepCase.of_if {s t : State} {c : Prop} [Decidable c] (h : c → StepCase s t) :
    StepCase s (if c then t else s) := by
  split_ifs with hc
  · exact h hc
  · exact .idle

theorem State.mode_of_ready {s : State} (h : s.ready = true) : s.mode = .ready := by simpa [State.ready] using h

/-- A step of a gang's active job on a part that is ready. -/
theorem StepCase.of_event {s t : State} (h : Effect s t) : StepCase s (if s.ready then t else s) :=
  .of_if fun hready => .effect (State.mode_of_ready hready) h

theorem withActive_cases {P : State → Prop} {s : State} {g : GangId} {f : Gang → Job → Beat → State} (hnone : P s)
    (hsome : ∀ G J later B, s.Active g G J later B → P (f G J B)) : P (s.withActive g f) := by
  by_cases h : ∃ (G : Gang) (J : Job) (later : List Job) (B : Beat), s.Active g G J later B
  · obtain ⟨G, J, later, B, hactive⟩ := h
    exact (State.withActive_eq hactive f).symm ▸ hsome G J later B hactive
  · simp only [not_exists] at h
    exact (State.withActive_none h f).symm ▸ hnone

/-- Every command does one of the things that `StepCase` lists. -/
theorem exec_cases {c : Instr} {s t : State} (h : exec c s = .next t) : StepCase s t := by
  cases c with
  | restartEngine x => exact .of_restartEngine s x t h
  | restartAll x rsel => exact .of_restartAll s x rsel t h
  | detach x => exact .of_detach s x t h
  | sync x => exact .of_sync s x t h
  | unknownRequest x => exact .of_unknownRequest s x t h
  | hello x => cases h; exact .of_serve fun p u => .same
  | summary x => cases h; exact .of_serve fun p u => .same
  | define x => cases h; exact .of_serve fun p u => defineRule_carries _ _ _ u
  | delete x => cases h; exact .of_serve deleteRule_carries
  | lookup x =>
    cases h
    refine .of_serve fun p u => ?_
    split
    · trivial
    · exact .same
  | describe x =>
    cases h
    refine .of_serve fun p u => ?_
    split
    · trivial
    · exact .same
  | catalog x =>
    cases h
    refine .of_serve fun p u => ?_
    dsimp only
    split_ifs
    · trivial
    · exact .same
  | storeMap x =>
    cases h
    refine .of_serve fun p u => ?_
    dsimp only
    split_ifs
    · trivial
    · exact .same
  | write x => cases h; exact .of_serve fun p u => hostData_carries fun b offset => .store (.written u _ _)
  | read x => cases h; exact .of_serve fun p u => hostData_carries fun b offset => .same
  | fill x => cases h; exact .of_serve fun p u => hostData_carries fun b offset => .store (.filled u _ _ _)
  | pack x =>
    cases h
    refine .of_serve fun p u => ?_
    split_ifs with hidle
    · trivial
    · exact .store (.packStarted u x (not_not.mp hidle))
  | stopPack x =>
    cases h
    refine .of_serve fun p u => ?_
    split
    · trivial
    · exact .store (.packEnded u true ‹_› ‹_›)
    · rename_i hrun hmove
      exact .store (.packStopping u hrun (by simp [hmove]))
    · exact .same
  | form x => cases h; exact .of_serve fun p u => formRule_carries x _ _ u
  | dissolve x =>
    cases h
    refine .of_serve fun p u => ownedGang_carries fun g G hG => ?_
    split_ifs with hqueue
    · trivial
    · exact .gang (.dissolved u hG (by simpa using hqueue))
  | configure x =>
    cases h
    refine .of_serve fun p u => ownedGang_carries fun g G hG => ?_
    split
    · trivial
    · split_ifs with hqueue
      · trivial
      · trivial
      · exact .gang (.configured u _ hG (by simpa using hqueue))
  | timing x =>
    cases h
    refine .of_serve fun p u => ownedGang_carries fun g G hG => ?_
    split_ifs with _ hqueue
    · trivial
    · trivial
    · trivial
    · exact .gang (.timed u _ hG (by simpa using hqueue))
  | gangStatus x => cases h; exact .of_serve fun p u => gangAt_carries fun g G hG => .same
  | setLines x =>
    cases h
    refine .of_serve fun p u => ownedGang_carries fun g G hG => ?_
    split_ifs with _ hmode
    · trivial
    · trivial
    · exact .gang (.latched u _ hG (not_not.mp hmode))
  | getLines x board => cases h; exact .of_serve fun p u => gangAt_carries fun g G hG => .gang (.sensed u board)
  | setControl x =>
    cases h
    refine .of_serve fun p u => ownedGang_carries fun g G hG => ?_
    split_ifs with _ hmode
    · trivial
    · trivial
    · exact .gang (.control u _ hG (not_not.mp hmode))
  | submit x => cases h; exact .of_serve (submitRule_carries x)
  | cancel x =>
    cases h
    refine .of_serve fun p u => findJob_carries fun f hf => ?_
    split_ifs
    · trivial
    · exact .gang (.cancelled u hf)
  | halt x =>
    cases h
    refine .of_serve fun p u => gangAt_carries fun g G hG => ?_
    split_ifs
    · trivial
    · split
      · exact .same
      · exact .gang (.halted u hG ‹_›)
  | pause x =>
    cases h
    refine .of_serve fun p u => gangAt_carries fun g G hG => ?_
    split_ifs
    · trivial
    · exact .gang (.paused u hG)
  | resume x =>
    cases h
    refine .of_serve fun p u => gangAt_carries fun g G hG => ?_
    split_ifs
    · trivial
    · exact .gang (.resumed u hG)
  | jobStatus x => cases h; exact .of_serve fun p u => findJob_carries fun f hf => .same
  | frameReceived x b => cases h; exact .of_if fun _ => .completed x _
  | lengthOversize x b => cases h; exact .of_if fun _ => .oversized x
  | gapTimerExpiry => cases h; exact .of_if fun _ => .gapEnded
  | sselDeasserted => cases h; exact .deselected s.ready
  | transmitBegin x => cases h; exact .of_if fun _ => .begun x
  | transmitEnd x => cases h; exact .of_if fun _ => .sent x
  | breakDetected =>
    cases h
    exact .of_if fun hready => .broken _ (State.mode_of_ready (Bool.and_eq_true_iff.mp hready).1)
  | syncTimerExpiry x => cases h; exact .of_if fun _ => .syncAnswered x _
  | powerOn rsel =>
    cases h
    refine .of_if fun _ => ?_
    split_ifs
    · exact .restarted rsel (mode := .starting .power) (by simp) (.inl rfl) (.inl rfl)
    · exact .restarted rsel (by simp) (.inl rfl) (.inl rfl)
  | powerOff =>
    cases h
    show StepCase s (if s.mode = .off then s else _)
    split_ifs
    · exact .idle
    · exact .restarted 0 (by simp) (.inr rfl) (.inr rfl)
  | resetnAsserted rsel =>
    cases h
    show StepCase s (if _ then _ else _)
    split_ifs
    · exact .restarted rsel (by simp) (.inl rfl) (.inl rfl)
    · exact .resetnMoved false
  | resetnReleased rsel =>
    cases h
    show StepCase s (if _ then _ else _)
    split_ifs
    · exact .restarted rsel (by simp) (.inl rfl) (.inl rfl)
    · exact .resetnMoved true
  | startupEnd =>
    cases h
    show StepCase s (match s.mode with | .starting cause => _ | .off => s | .held => s | .ready => s)
    split
    · exact .startupEnded _ (by simp [*])
    · exact .idle
    · exact .idle
    · exact .idle
  | flgChange i high board =>
    cases h
    show StepCase s (if s.pins[i].flg = high then s else _)
    split_ifs with _ hready
    · exact .idle
    · exact .effect (State.mode_of_ready hready) (.gang (.flgChanged s i high board))
    · exact .flgRecorded i high board
  | holdChange i high =>
    cases h
    show StepCase s (if s.pins[i].hold = high then s else _)
    split_ifs with _ hready
    · exact .idle
    · exact .effect (State.mode_of_ready hready) (.gang (.holdChanged s i high))
    · exact .holdRecorded i high fun hmode => hready (State.ready_of hmode)
  | settleEnd g board =>
    cases h
    refine .of_if fun hready => withActive_cases .idle fun G J later B hactive => .of_if fun hdue => ?_
    exact .effect (State.mode_of_ready hready) (.gang (.settled s g board hactive hdue))
  | pulseEnd g => cases h; exact .of_event (.gang (.pulseEnded s g))
  | periodEnd g => cases h; exact .of_event (.gang (.periodEnded s g))
  | beatTimerExpiry g => cases h; exact .of_event (.gang (.expired s g))
  | packVisit =>
    cases h
    refine .of_if fun hdue => ?_
    simp only [Bool.and_eq_true, beq_iff_eq, Option.isNone_iff_eq_none] at hdue
    obtain ⟨⟨hready, hrun⟩, hmove⟩ := hdue
    refine .effect (State.mode_of_ready hready) ?_
    split
    · exact .store (.packEnded s false hrun hmove)
    · exact .store (.visited s hrun hmove ‹_›)
  | moveCompletion =>
    cases h
    refine .of_if fun hready => ?_
    split
    · exact .idle
    · exact .effect (State.mode_of_ready hready) (.store (.moved s ‹_›))
  | byteReceived x b =>
    cases h
    refine .of_if fun _ => ?_
    dsimp only
    split_ifs
    · exact .byteStored x b
    · exact .exchanged x
  | breakEnd => cases h; exact .lineHigh

end Sys2Proof.Machine
end

section
/-! PROOFS. The writes of the transfer engines: whatever an engine, a queue or block access control does is a chain of
writes of gang records, lanes, access records, notices and SYNC answers, and of store bytes where a beat samples. -/

namespace Sys2Proof.Machine

/-! ## The writes -/

/-- The fields of a gang that its engine never changes (R59). -/
def Gang.settings (G : Gang) : LinkId × LaneId × Nat × GangConfig × GangTiming :=
  (G.owner, G.first, G.width, G.cfg, G.time)

/-- The fields of a directory record that block access control never changes (R3). -/
def Block.place (b : Block) : List Byte × Nat × Nat × Option Nat := (b.name, b.size, b.base, b.dest)

/-- One write of an engine; store bytes are written only where `samples` holds. -/
inductive EngineWrite (samples : Prop) : State → State → Prop
  | gang (s : State) (g : GangId) (f : Gang → Gang)
      (h : ∀ G ∈ s.gang g, (f G).settings = G.settings ∧ ((f G).queue.map Job.id).Sublist (G.queue.map Job.id)) :
      EngineWrite samples s (s.modGang g f)
  | lanes (s : State) {g : GangId} (G : Gang) (f : Nat → Lane → Lane) (hG : ∃ G' ∈ s.gang g, G'.settings = G.settings)
      (hf : ∀ i l, (f i l).gang = l.gang) : EngineWrite samples s (s.modLanes G f)
  | block (s : State) (i : SlotId) (f : Block → Block) (hf : ∀ b, (f b).place = b.place) :
      EngineWrite samples s (s.modBlock i f)
  | notified (s : State) (x : LinkId) (body : NoticeBody) : EngineWrite samples s (s.notify x body)
  | marked (s : State) (x : LinkId) (f : Notice → Notice) :
      EngineWrite samples s (s.modLink x fun l => { l with notices := l.notices.map f })
  | syncAnswered (s : State) (x : LinkId) (payload : List Byte) : EngineWrite samples s (s.resolveSync x payload)
  | bytes (s : State) (h : samples) (a : Nat) (bs : List Byte) :
      EngineWrite samples s { s with store := s.store.setBytes a bs }

/-- A chain of writes of an engine. -/
abbrev Engine (samples : Prop) : State → State → Prop := Relation.ReflTransGen (EngineWrite samples)

variable {p : Prop}

theorem Engine.single {s t : State} (h : EngineWrite p s t) : Engine p s t := Relation.ReflTransGen.single h

/-- One chain after another; the last one is given first, because it names what lies between. -/
theorem Engine.after {s t u : State} (h : Engine p t u) (hfirst : Engine p s t) : Engine p s u :=
  Relation.ReflTransGen.trans hfirst h

/-- What every write keeps, a chain of writes keeps. -/
theorem Engine.keeps {P : State → Prop} (hw : ∀ s t, EngineWrite p s t → P s → P t) {s t : State}
    (h : Engine p s t) (hs : P s) : P t := by
  induction h with
  | refl => exact hs
  | tail _ hlast ih => exact hw _ _ hlast ih

/-- An engine that does not sample may be taken for one that does. -/
theorem Engine.mono {q : Prop} (hpq : p → q) {s t : State} (h : Engine p s t) : Engine q s t := by
  refine h.keeps (P := Engine q s) (fun u v hw hu => hu.tail ?_) .refl
  cases hw with
  | gang g f h => exact .gang _ g f h
  | lanes G f hG hf => exact .lanes _ G f hG hf
  | block i f hf => exact .block _ i f hf
  | notified x body => exact .notified _ x body
  | marked x f => exact .marked _ x f
  | syncAnswered x payload => exact .syncAnswered _ x payload
  | bytes h a bs => exact .bytes _ (hpq h) a bs

/-! ## The small operations -/

/-- A write of a gang's record that keeps its settings and its queue. -/
theorem State.engine_modGang (s : State) (g : GangId) {f : Gang → Gang} (hset : ∀ G, (f G).settings = G.settings)
    (hq : ∀ G, (f G).queue = G.queue) : Engine p s (s.modGang g f) :=
  .single (.gang s g f fun G _ => ⟨hset G, by rw [hq]⟩)

theorem State.engine_modBeat (s : State) (g : GangId) (f : Beat → Beat) : Engine p s (s.modBeat g f) :=
  s.engine_modGang g (fun _ => rfl) fun _ => rfl

theorem State.engine_setPhase (s : State) (g : GangId) (ph : Phase) : Engine p s (s.setPhase g ph) :=
  s.engine_modBeat g _

theorem State.engine_setCtl (s : State) (g : GangId) (level : Bool) : Engine p s (s.setCtl g level) :=
  s.engine_modGang g (fun _ => rfl) fun _ => rfl

theorem State.engine_setLast (s : State) (g : GangId) (o : LastOutcome) : Engine p s (s.setLast g o) :=
  s.engine_modGang g (fun _ => rfl) fun _ => rfl

theorem State.engine_setJobState (s : State) (g : GangId) (st : JobState) : Engine p s (s.setJobState g st) := by
  refine .single (.gang s g _ fun G _ => ⟨rfl, ?_⟩)
  cases G.queue <;> simp

theorem State.engine_modLanes {s : State} {g : GangId} {G : Gang} (hG : s.gang g = some G) {f : Nat → Lane → Lane}
    (hf : ∀ i l, (f i l).gang = l.gang) : Engine p s (s.modLanes G f) :=
  .single (.lanes s G f ⟨G, hG, rfl⟩ hf)

theorem State.engine_setDrivers {s : State} {g : GangId} {G : Gang} (hG : s.gang g = some G) (on : Bool) :
    Engine p s (s.setDrivers G on) :=
  State.engine_modLanes hG fun _ _ => rfl

theorem State.engine_modBlock (s : State) (i : SlotId) {f : Block → Block} (hf : ∀ b, (f b).place = b.place) :
    Engine p s (s.modBlock i f) :=
  .single (.block s i f hf)

theorem State.engine_unref (s : State) (i : SlotId) : Engine p s (s.unref i) := s.engine_modBlock i fun _ => rfl

theorem State.engine_notify (s : State) (x : LinkId) (body : NoticeBody) : Engine p s (s.notify x body) :=
  .single (.notified s x body)

theorem State.engine_notifyOwner (s : State) (g : GangId) (body : NoticeBody) : Engine p s (s.notifyOwner g body) := by
  unfold State.notifyOwner
  split
  · exact .refl
  · exact s.engine_notify _ body

theorem State.engine_resolveSyncOf (s : State) (x : LinkId) (hit : GangId → Bool) (payload : GangId → List Byte) :
    Engine p s (s.resolveSyncOf x hit payload) := by
  unfold State.resolveSyncOf
  split
  · exact .refl
  · split_ifs
    · exact .single (.syncAnswered s x _)
    · exact .refl

theorem State.engine_syncEmptied (s : State) (g : GangId) : Engine p s (s.syncEmptied g) := by
  unfold State.syncEmptied
  exact (State.engine_resolveSyncOf _ .b _ _).after (s.engine_resolveSyncOf .a _ _)

theorem State.engine_withActive {s : State} {g : GangId} {f : Gang → Job → Beat → State}
    (h : ∀ G J later B, s.Active g G J later B → Engine p s (f G J B)) : Engine p s (s.withActive g f) :=
  withActive_cases .refl h

/-! ## Drive, sample and the first step of a beat -/

theorem State.engine_drive (s : State) (g : GangId) : Engine p s (s.drive g) := by
  refine State.engine_withActive fun G J later B ⟨hG, _, _⟩ => ?_
  split
  · exact .refl
  · exact (State.engine_modBeat _ g _).after (State.engine_modLanes hG fun _ _ => rfl)

theorem State.engine_sample (s : State) (g : GangId) : Engine True s (s.sample g) := by
  refine State.engine_withActive fun G J later B _ => ?_
  split
  · exact .refl
  · exact (Engine.single (.bytes s trivial _ _)).trans (State.engine_modBeat _ g _)

theorem State.engine_driveAndSettle (s : State) (g : GangId) : Engine p s (s.driveAndSettle g) :=
  (s.engine_drive g).trans (State.engine_setPhase _ g _)

theorem State.engine_passReady (s : State) (g : GangId) : Engine p s (s.passReady g) := by
  refine State.engine_withActive fun G J later B _ => ?_
  split
  · exact s.engine_driveAndSettle g
  · exact (s.engine_setCtl g _).trans (State.engine_setPhase _ g _)

theorem State.engine_periodStart (s : State) (g : GangId) : Engine p s (s.periodStart g) := by
  refine State.engine_withActive fun G J later B _ => ?_
  refine (s.engine_modBeat g fun B => { B with periodTimer := .running G.time.period }).trans ?_
  dsimp only
  split
  · exact State.engine_driveAndSettle _ g
  · exact (State.engine_setCtl _ g _).trans (State.engine_setPhase _ g _)

theorem State.engine_enterFirst (s : State) (g : GangId) : Engine p s (s.enterFirst g) := by
  refine State.engine_withActive fun G J later B _ => ?_
  split <;> try split_ifs
  any_goals exact s.engine_setPhase g _
  any_goals exact s.engine_passReady g
  any_goals exact s.engine_periodStart g
  · exact .refl
  · exact s.engine_driveAndSettle g

theorem State.engine_beginBeat (s : State) (g : GangId) : Engine p s (s.beginBeat g) :=
  State.engine_withActive fun _ _ _ _ _ => (s.engine_modBeat g _).trans (State.engine_enterFirst _ g)

theorem State.engine_tryBegin (s : State) (g : GangId) : Engine p s (s.tryBegin g) := by
  refine State.engine_withActive fun G J later B _ => ?_
  split_ifs
  · exact s.engine_beginBeat g
  · exact .refl

/-! ## Grants, claims and activation -/

theorem State.engine_handGrant (s : State) (g : GangId) : Engine p s (s.handGrant g) := by
  unfold State.handGrant
  split
  · exact .refl
  · split
    · exact s.engine_setJobState g _
    all_goals exact (s.engine_setJobState g _).trans (State.engine_tryBegin _ g)

theorem State.engine_handGrants (l : List Waiter) (s : State) :
    Engine p s (l.foldl (fun s v => s.handGrant v.gang) s) := by
  induction l generalizing s with
  | nil => exact .refl
  | cons w ws ih => exact (s.engine_handGrant w.gang).trans (ih _)

theorem State.engine_evaluate (s : State) (i : SlotId) : Engine p s (s.evaluate i) := by
  unfold State.evaluate
  split
  · exact .refl
  · split
    · exact .refl
    · split
      · exact .refl
      · dsimp only
        split_ifs
        · exact .refl
        · exact (State.engine_handGrant _ _).after (s.engine_modBlock i fun _ => rfl)
        · exact .refl
        · exact (State.engine_handGrants _ _).after (s.engine_modBlock i fun _ => rfl)

theorem State.engine_release (s : State) (i : SlotId) (g : GangId) : Engine p s (s.release i g) :=
  (State.engine_evaluate _ i).after (s.engine_modBlock i fun _ => rfl)

theorem State.engine_claim (s : State) (g : GangId) : Engine p s (s.claim g) := by
  refine State.engine_withActive fun G J later B _ => ?_
  split
  · exact .refl
  · dsimp only
    split_ifs
    · exact (State.engine_handGrant _ _).after (s.engine_modBlock _ fun _ => rfl)
    · exact (State.engine_handGrant _ _).after (s.engine_modBlock _ fun _ => rfl)
    · exact (State.engine_setJobState _ _ _).after (s.engine_modBlock _ fun _ => rfl)

theorem State.engine_activate (s : State) (g : GangId) : Engine p s (s.activate g) := by
  unfold State.activate
  split
  · exact .refl
  · rename_i G hG
    refine (State.engine_claim _ g).after (Engine.after ?_ (State.engine_setDrivers hG false))
    exact State.engine_modGang _ g (fun _ => rfl) fun _ => rfl

/-! ## Departures -/

theorem State.engine_applyRest (s : State) (g : GangId) (sent : Bool) : Engine p s (s.applyRest g sent) := by
  unfold State.applyRest
  split
  · exact .refl
  · rename_i G hG
    refine Engine.after (.single (.lanes (g := g) _ G (fun _ l => { l with enabled := _ }) ?_ fun _ _ => rfl))
      (s.engine_modGang g (fun _ => rfl) fun _ => rfl)
    exact ⟨{ G with restDrive := G.cfg.restHold && sent }, by rw [State.modGang_gang_self, hG]; rfl, rfl⟩

theorem State.engine_dropJobs (l : List Job) (s : State) (g : GangId) (cause : Nat) :
    Engine p s (s.dropJobs g cause l) := by
  induction l generalizing s with
  | nil => exact .refl
  | cons K ks ih =>
    exact (((s.engine_unref K.slot).trans (State.engine_setLast _ g _)).trans
      (State.engine_notifyOwner _ g _)).trans (ih _)

theorem State.engine_finishDeparture (s : State) (g : GangId) (sent : Bool) :
    Engine p s (s.finishDeparture g sent) := by
  refine (s.engine_modGang g (f := fun G => { G with run := if G.run = .pausing then .paused else G.run })
    (fun _ => rfl) fun _ => rfl).trans ?_
  unfold State.finishDeparture
  dsimp only
  split
  · exact .refl
  · split_ifs
    · exact (State.engine_applyRest _ g _).trans (State.engine_syncEmptied _ g)
    · exact State.engine_activate _ g

/-- A queue of which jobs have left keeps the order of the ids of the others. -/
theorem kept_ids_sublist (o : LastOutcome) (J : Job) (rest : List Job) :
    ((if o = .done then rest else rest.dropWhile Job.afterOk).map Job.id).Sublist ((J :: rest).map Job.id) := by
  refine List.Sublist.map _ (List.Sublist.cons _ ?_)
  split_ifs
  · exact .refl _
  · exact List.dropWhile_sublist _

theorem State.engine_departHead (s : State) (g : GangId) (o : LastOutcome) (notice : Option NoticeBody) :
    Engine p s (s.departHead g o notice) := by
  unfold State.departHead
  split
  · exact .refl
  · rename_i G hG
    split
    · exact .refl
    · rename_i J rest hq
      dsimp only
      refine Relation.ReflTransGen.trans ?_ ((State.engine_dropJobs _ _ g _).trans (State.engine_finishDeparture _ g _))
      have hqueue : Engine p s (s.modGang g fun G =>
          { G with queue := if o = .done then rest else rest.dropWhile Job.afterOk, beat := none }) := by
        refine .single (.gang s g _ fun G' hG' => ⟨rfl, ?_⟩)
        cases hG.symm.trans hG'
        rw [hq]
        exact kept_ids_sublist o J rest
      have hlast := hqueue.trans (((State.engine_release _ J.slot g).trans (State.engine_unref _ J.slot)).trans
        (State.engine_setLast _ g o))
      split
      · exact hlast
      · exact hlast.trans (State.engine_notifyOwner _ g _)

theorem State.engine_departQueued {s : State} {g : GangId} {G : Gang} {before behind : List Job} {J : Job}
    (hG : s.gang g = some G) (hq : G.queue = before ++ J :: behind) :
    Engine p s (s.departQueued g before J behind) := by
  have hqueue : Engine p s (s.modGang g fun G => { G with queue := before ++ behind.dropWhile Job.afterOk }) := by
    refine .single (.gang s g _ fun G' hG' => ⟨rfl, ?_⟩)
    cases hG.symm.trans hG'
    rw [hq]
    exact List.Sublist.map _ (List.Sublist.append_left ((List.dropWhile_sublist _).cons _) _)
  exact ((hqueue.trans (State.engine_unref _ _)).trans (State.engine_setLast _ g _)).trans (State.engine_dropJobs _ _ g _)

/-! ## The events of an engine -/

theorem State.engine_completeBeat (s : State) (g : GangId) : Engine p s (s.completeBeat g) := by
  refine State.engine_withActive fun G J later B _ => ?_
  refine (s.engine_modBeat g fun _ => B.next J).trans ?_
  dsimp only
  split
  · exact (State.engine_departHead _ g _ _).after (State.engine_setCtl _ g _)
  · split
    · exact State.engine_tryBegin _ g
    · exact (State.engine_setJobState _ g _).after (State.engine_modGang _ g (fun _ => rfl) fun _ => rfl)
    · exact .refl

theorem State.engine_faultJob (s : State) (g : GangId) (reason : FaultReason) : Engine p s (s.faultJob g reason) :=
  State.engine_withActive fun _ _ _ _ _ => (s.engine_setCtl g _).trans (State.engine_departHead _ g _ _)

theorem State.engine_sampleAndComplete (s : State) (g : GangId) (ctl : Bool) :
    Engine True s (s.sampleAndComplete g ctl) :=
  ((s.engine_sample g).trans (State.engine_setCtl _ g ctl)).trans (State.engine_completeBeat _ g)

theorem State.engine_flgMoved (s : State) (g : GangId) (f : Bool) : Engine True s (s.flgMoved g f) := by
  refine State.engine_withActive fun G J later B _ => ?_
  split
  · split
    · split_ifs
      · exact .refl
      · exact s.engine_passReady g
    · split
      · split
        · exact (State.engine_completeBeat _ g).after (s.engine_setCtl g _)
        · exact s.engine_setPhase g _
      · exact .refl
    · split_ifs
      · exact s.engine_completeBeat g
      · exact s.engine_driveAndSettle g
      · exact .refl
    · split_ifs
      · exact .refl
      · exact s.engine_setPhase g _
    · split_ifs
      · exact (State.engine_setPhase _ g _).after ((State.engine_setCtl _ g _).after (s.engine_sample g))
      · exact .refl
    · split_ifs
      · exact .refl
      · exact s.engine_periodStart g
    · split_ifs
      · exact s.engine_faultJob g _
      · exact .refl
    all_goals exact .refl
  · exact .refl

theorem State.engine_notifyEdge (s : State) (x : LinkId) (g : GangId) (level : Bool) :
    Engine p s (s.notifyEdge x g level) := by
  unfold State.notifyEdge
  split_ifs
  · exact .single (.marked s x _)
  · exact s.engine_notify x _

theorem State.engine_watchFlg (s : State) (g : GangId) (f : Bool) : Engine p s (s.watchFlg g f) := by
  unfold State.watchFlg
  split
  · exact .refl
  · split_ifs
    · exact (State.engine_notifyEdge _ _ g f).after (s.engine_modGang g (fun _ => rfl) fun _ => rfl)
    · exact .refl

theorem State.engine_flgSeen (s : State) (i : LaneId) : Engine True s (s.flgSeen i) := by
  unfold State.flgSeen
  split
  · exact .refl
  · split_ifs
    · exact s.engine_watchFlg _ _
    · exact s.engine_flgMoved _ _
    · exact .refl

theorem State.engine_settleDone (s : State) (g : GangId) : Engine True s (s.settleDone g) := by
  refine State.engine_withActive fun G J later B _ => ?_
  dsimp only
  split <;> try split_ifs
  any_goals exact s.engine_sampleAndComplete g _
  any_goals exact .refl
  · exact (s.engine_setCtl g _).trans (State.engine_completeBeat _ g)
  · exact (s.engine_setCtl g _).trans (State.engine_setPhase _ g _)
  · exact ((s.engine_setCtl g _).trans (State.engine_modBeat _ g _)).trans (State.engine_completeBeat _ g)
  · exact ((s.engine_setCtl g _).trans (State.engine_modBeat _ g _)).trans (State.engine_setPhase _ g _)
  · exact (s.engine_setCtl g _).trans (State.engine_setPhase _ g _)
  · exact (s.engine_setCtl g _).trans (State.engine_setPhase _ g _)
  · exact (s.engine_sample g).trans (State.engine_setPhase _ g _)
  · exact s.engine_sample g

theorem State.engine_pulseDone (s : State) (g : GangId) : Engine p s (s.pulseDone g) := by
  refine State.engine_withActive fun G J later B _ => ?_
  split
  · split
    · exact (State.engine_completeBeat _ g).after (s.engine_setCtl g _)
    · split_ifs
      · exact (State.engine_completeBeat _ g).after (s.engine_setCtl g _)
      · exact (State.engine_setPhase _ g _).after (s.engine_setCtl g _)
    · split_ifs
      · exact (State.engine_setPhase _ g _).after (s.engine_setCtl g _)
      · exact (State.engine_setPhase _ g _).after (s.engine_setCtl g _)
      · exact .refl
    · exact .refl
  · exact .refl

theorem State.engine_periodDone (s : State) (g : GangId) : Engine p s (s.periodDone g) := by
  refine State.engine_withActive fun G J later B _ => ?_
  split_ifs
  · exact s.engine_completeBeat g
  · exact s.engine_modBeat g _
  · exact .refl
  · exact .refl

theorem State.engine_beatExpired (s : State) (g : GangId) : Engine p s (s.beatExpired g) := by
  refine State.engine_withActive fun G J later B _ => ?_
  split_ifs
  · exact s.engine_faultJob g _
  · exact s.engine_faultJob g _
  · exact .refl

theorem State.engine_abandonBeat (s : State) (g : GangId) : Engine p s (s.abandonBeat g) := by
  refine State.engine_withActive fun G J later B _ => ?_
  split_ifs
  · exact (State.engine_modBeat _ g _).after (s.engine_modGang g (fun _ => rfl) fun _ => rfl)
  · exact .refl

theorem State.engine_holdBegin (s : State) (g : GangId) : Engine p s (s.holdBegin g) := by
  unfold State.holdBegin
  split
  · exact .refl
  · exact (State.engine_setDrivers ‹_› false).trans (State.engine_abandonBeat _ g)

theorem State.engine_holdEnd (s : State) (g : GangId) : Engine p s (s.holdEnd g) := by
  unfold State.holdEnd
  split
  · exact .refl
  · split <;> try split_ifs
    any_goals exact .refl
    · exact (s.engine_modBeat g _).trans (State.engine_enterFirst _ g)
    · exact s.engine_tryBegin g
    · exact State.engine_setDrivers ‹_› true

theorem State.engine_holdSeen (s : State) (i : LaneId) (before : State) : Engine p s (s.holdSeen i before) := by
  unfold State.holdSeen
  split
  · exact .refl
  · split_ifs
    · exact s.engine_holdBegin _
    · exact s.engine_holdEnd _
    · exact .refl

/-! ## The requests of the jobs area -/

/-- A queue split at the job with an id. -/
theorem splitAtId_eq {id : Nat} {l before behind : List Job} {J : Job} (h : splitAtId id l = some (before, J, behind)) :
    l = before ++ J :: behind ∧ J.id = id ∧ ∀ K ∈ before, K.id ≠ id := by
  induction l generalizing before with
  | nil => cases h
  | cons K l ih =>
    rw [splitAtId] at h
    split_ifs at h with hid
    · cases h
      exact ⟨rfl, hid, by simp⟩
    · obtain ⟨⟨before', J', behind'⟩, hr, hout⟩ := Option.map_eq_some_iff.mp h
      cases hout
      obtain ⟨rfl, hJ, hbefore⟩ := ih hr
      exact ⟨rfl, hJ, List.forall_mem_cons.2 ⟨hid, hbefore⟩⟩

theorem State.mem_formed {s : State} {g : GangId} {G : Gang} : (g, G) ∈ s.formed ↔ s.gang g = some G := by
  simp [State.formed]

/-- The place of a job that is found. -/
theorem State.findJob_eq {s : State} {id : Nat} {f : Found} (h : s.findJob id = some f) :
    s.gang f.gang = some f.record ∧ f.record.queue = f.before ++ f.job :: f.behind ∧ f.job.id = id ∧
      ∀ K ∈ f.before, K.id ≠ id := by
  unfold State.findJob at h
  split_ifs at h
  obtain ⟨⟨g, G⟩, hmem, hsplit⟩ := List.exists_of_findSome?_eq_some h
  obtain ⟨⟨before, J, behind⟩, hr, rfl⟩ := Option.map_eq_some_iff.mp hsplit
  exact ⟨State.mem_formed.mp hmem, splitAtId_eq hr⟩

theorem State.engine_cancelJob {s : State} {id : Nat} {f : Found} (h : s.findJob id = some f) :
    Engine p s (s.cancelJob f) := by
  unfold State.cancelJob
  obtain ⟨hG, hq, -, -⟩ := State.findJob_eq h
  split_ifs
  · exact (s.engine_setCtl _ _).trans (State.engine_departHead _ _ _ _)
  · exact State.engine_departQueued hG hq

/-- The jobs behind the head leave from the tail (R129). -/
def State.haltBehind (s : State) (g : GangId) (behind : List Job) : State :=
  behind.foldr (fun K s => (s.unref K.slot).setLast g .cancelled) s

theorem State.engine_haltBehind (s : State) (g : GangId) (behind : List Job) :
    Engine p s (s.haltBehind g behind) := by
  induction behind with
  | nil => exact .refl
  | cons K ks ih => exact (ih.trans (State.engine_unref _ _)).trans (State.engine_setLast _ g _)

theorem State.haltGang_eq (s : State) (g : GangId) (J : Job) (behind : List Job) :
    s.haltGang g J behind =
      ((s.haltBehind g behind).modGang g fun G => { G with queue := [J], ctl := false }).departHead g .cancelled none := by
  rfl

theorem State.haltBehind_gang {s : State} {g : GangId} {G : Gang} (hG : s.gang g = some G) (behind : List Job) :
    (s.haltBehind g behind).gang g =
      some { G with last := if behind = [] then G.last else .cancelled } := by
  induction behind with
  | nil => exact hG
  | cons K ks ih =>
    have hstep : (s.haltBehind g (K :: ks)).gang g =
        ((s.haltBehind g ks).gang g).map fun G => { G with last := .cancelled } :=
      State.modGang_gang_self ..
    simp [hstep, ih]

theorem State.engine_haltGang {s : State} {g : GangId} {G : Gang} {J : Job} {behind : List Job}
    (hG : s.gang g = some G) (hq : G.queue = J :: behind) : Engine p s (s.haltGang g J behind) := by
  have hqueue : Engine p (s.haltBehind g behind)
      ((s.haltBehind g behind).modGang g fun G => { G with queue := [J], ctl := false }) := by
    refine .single (.gang _ g _ fun G' hG' => ⟨rfl, ?_⟩)
    cases (State.haltBehind_gang hG behind).symm.trans hG'
    simp [hq]
  rw [State.haltGang_eq]
  exact (State.engine_departHead _ g _ _).after (hqueue.after (s.engine_haltBehind g behind))

theorem State.engine_pauseGang (s : State) (g : GangId) (G : Gang) : Engine p s (s.pauseGang g G) := by
  unfold State.pauseGang
  split
  · exact .refl
  · exact .refl
  · split_ifs
    · exact s.engine_modGang g (fun _ => rfl) fun _ => rfl
    · refine (s.engine_modGang g (f := fun G => { G with run := .paused }) (fun _ => rfl) fun _ => rfl).trans ?_
      dsimp only
      split
      · exact .refl
      · split_ifs
        · exact State.engine_setJobState _ g _
        · exact .refl

theorem State.engine_resumeGang (s : State) (g : GangId) (G : Gang) : Engine p s (s.resumeGang g G) := by
  unfold State.resumeGang
  split
  · exact .refl
  · exact s.engine_modGang g (fun _ => rfl) fun _ => rfl
  · refine (s.engine_modGang g (f := fun G => { G with run := .running }) (fun _ => rfl) fun _ => rfl).trans ?_
    dsimp only
    split
    · exact .refl
    · split_ifs
      · exact (State.engine_setJobState _ g _).trans (State.engine_tryBegin _ g)
      · exact .refl

theorem State.engine_evaluates (l : List SlotId) (s : State) : Engine p s (l.foldl State.evaluate s) := by
  induction l generalizing s with
  | nil => exact .refl
  | cons i is ih => exact (s.engine_evaluate i).trans (ih _)

/-! ## What a chain of writes leaves alone -/

/-- The SYNC answer, a notice and a mark change their link only. -/
theorem State.setLink_only (s : State) (x : LinkId) (l : Link) :
    ∃ (a b : Link), s.setLink x l = { s with linkA := a, linkB := b } := by
  cases x
  · exact ⟨l, s.linkB, rfl⟩
  · exact ⟨s.linkA, l, rfl⟩

theorem State.resolveSync_only (s : State) (x : LinkId) (payload : List Byte) :
    ∃ (a b : Link), s.resolveSync x payload = { s with linkA := a, linkB := b } := by
  unfold State.resolveSync
  split
  · exact ⟨s.linkA, s.linkB, rfl⟩
  · exact s.setLink_only x _

/-- Nothing but gangs, lanes, the directory, the links and, while sampling, the store differs. -/
theorem Engine.only {s t : State} (h : Engine p s t) :
    ∃ (store : Mem) (dir : Vector Slot 48) (lanes : Vector Lane 10) (gangs : Vector (Option Gang) 8) (a b : Link),
      t = { s with store := store, dir := dir, lanes := lanes, gangs := gangs, linkA := a, linkB := b } := by
  induction h with
  | refl => exact ⟨s.store, s.dir, s.lanes, s.gangs, s.linkA, s.linkB, rfl⟩
  | tail _ hw ih =>
    obtain ⟨store, dir, lanes, gangs, a, b, rfl⟩ := ih
    cases hw with
    | gang | lanes | block | bytes => exact ⟨_, _, _, _, _, _, rfl⟩
    | notified x body =>
      obtain ⟨a, b, h⟩ := State.setLink_only _ x _
      exact ⟨_, _, _, _, _, _, h⟩
    | marked x f =>
      obtain ⟨a, b, h⟩ := State.setLink_only _ x _
      exact ⟨_, _, _, _, _, _, h⟩
    | syncAnswered x payload =>
      obtain ⟨a, b, h⟩ := State.resolveSync_only _ x payload
      rw [h]
      exact ⟨_, _, _, _, _, _, rfl⟩

/-- The fields that an engine never writes. -/
theorem Engine.fields {s t : State} (h : Engine p s t) :
    t.mode = s.mode ∧ t.free = s.free ∧ t.pack = s.pack ∧ t.pins = s.pins ∧ t.nextId = s.nextId ∧ t.gap = s.gap ∧
      t.rate = s.rate ∧ t.silent = s.silent ∧ t.ssel = s.ssel ∧ t.sdo = s.sdo ∧ t.fresh = s.fresh ∧
      t.pending = s.pending ∧ t.started = s.started ∧ t.resetnHigh = s.resetnHigh := by
  obtain ⟨_, _, _, _, _, _, rfl⟩ := h.only
  exact ⟨rfl, rfl, rfl, rfl, rfl, rfl, rfl, rfl, rfl, rfl, rfl, rfl, rfl, rfl⟩

/-- An engine that does not sample leaves the store. -/
theorem Engine.store {s t : State} (h : Engine False s t) : t.store = s.store := by
  refine h.keeps (P := fun t => t.store = s.store) ?_ rfl
  intro u v hw hu
  cases hw with
  | gang | lanes | block => exact hu
  | notified | marked => simpa [State.notify, State.modLink] using hu
  | syncAnswered x payload =>
    unfold State.resolveSync
    split
    · exact hu
    · simpa [State.modLink] using hu
  | bytes h => exact h.elim

/-- Every record keeps its name, its size and its place, and every slot its generation. -/
theorem Engine.place {s t : State} (h : Engine p s t) (i : SlotId) :
    t.dir[i].gen = s.dir[i].gen ∧ (t.block i).map Block.place = (s.block i).map Block.place := by
  refine h.keeps (P := fun t => t.dir[i].gen = s.dir[i].gen ∧
    (t.block i).map Block.place = (s.block i).map Block.place) ?_ ⟨rfl, rfl⟩
  intro u v hw hu
  cases hw with
  | gang | lanes | bytes => exact hu
  | notified | marked => simpa [State.notify, State.modLink, State.block] using hu
  | syncAnswered x payload =>
    unfold State.resolveSync
    split
    · exact hu
    · simpa [State.modLink, State.block] using hu
  | block j f hf =>
    refine ⟨(State.modBlock_gen ..).trans hu.1, ?_⟩
    by_cases hij : i = j
    · subst hij
      rw [State.modBlock_block_self, Option.map_map, ← hu.2]
      exact congrArg (fun f => Option.map f _) (funext hf)
    · rw [State.modBlock_block_ne _ _ hij, hu.2]

end Sys2Proof.Machine
end

section
/-! PROOFS. The machine behind the links: what the operations of the links change is only the links and their wires, so
an invariant that does not speak of these is kept by every step once the effects behind the links keep it. -/

namespace Sys2Proof.Machine

/-! ## Changes of the links and their wires -/

/-- Nothing but the links, their wires, the RESETN pin differs. -/
def OnlyWires (s t : State) : Prop :=
  ∃ (a b : Link) (gap : Timer) (silent ssel : Bool) (sdo : Option Byte) (resetnHigh : Bool),
    t = { s with
          linkA := a, linkB := b, gap := gap, silent := silent, ssel := ssel, sdo := sdo, resetnHigh := resetnHigh }

theorem OnlyWires.refl (s : State) : OnlyWires s s := ⟨_, _, _, _, _, _, _, rfl⟩

theorem OnlyWires.trans {s t u : State} : OnlyWires s t → OnlyWires t u → OnlyWires s u := by
  rintro ⟨_, _, _, _, _, _, _, rfl⟩ ⟨_, _, _, _, _, _, _, rfl⟩
  exact ⟨_, _, _, _, _, _, _, rfl⟩

/-- One change after another; the last one is given first. -/
theorem OnlyWires.after {s t u : State} (h : OnlyWires t u) (hfirst : OnlyWires s t) : OnlyWires s u := hfirst.trans h

theorem State.wires_setLink (s : State) (x : LinkId) (l : Link) : OnlyWires s (s.setLink x l) := by
  cases x <;> exact ⟨_, _, _, _, _, _, _, rfl⟩

theorem State.wires_modLink (s : State) (x : LinkId) (f : Link → Link) : OnlyWires s (s.modLink x f) :=
  s.wires_setLink x _

theorem State.wires_popped (s : State) (x : LinkId) (rest : List Request) : OnlyWires s (s.popped x rest) :=
  s.wires_setLink x _

theorem State.wires_answered (s : State) (x : LinkId) (r : Request) (rest : List Request) (payload : List Byte) :
    OnlyWires s (s.answered x r rest payload) :=
  s.wires_setLink x _

theorem State.wires_pushReply (s : State) (x : LinkId) (r : Reply) : OnlyWires s (s.pushReply x r) :=
  s.wires_modLink x _

theorem State.wires_notify (s : State) (x : LinkId) (body : NoticeBody) : OnlyWires s (s.notify x body) :=
  s.wires_modLink x _

theorem State.wires_orphanEdges (s : State) (x : LinkId) (hit : GangId → Bool) : OnlyWires s (s.orphanEdges x hit) :=
  s.wires_modLink x _

theorem State.wires_holdSync (s : State) (x : LinkId) (tag : Byte) (g : GangId) (timeout : Nat) :
    OnlyWires s (s.holdSync x tag g timeout) :=
  s.wires_modLink x _

theorem State.wires_resolveSync (s : State) (x : LinkId) (payload : List Byte) :
    OnlyWires s (s.resolveSync x payload) := by
  unfold State.resolveSync
  split
  · exact .refl s
  · exact s.wires_modLink x _

theorem State.wires_resolveSyncOf (s : State) (x : LinkId) (hit : GangId → Bool) (payload : GangId → List Byte) :
    OnlyWires s (s.resolveSyncOf x hit payload) := by
  unfold State.resolveSyncOf
  split
  · exact .refl s
  · split_ifs
    · exact s.wires_resolveSync x _
    · exact .refl s

theorem State.wires_setParser (s : State) (x : LinkId) (p : ParserState) (buffer : List Byte) :
    OnlyWires s (s.setParser x p buffer) := by
  cases x <;> exact ⟨_, _, _, _, _, _, _, rfl⟩

theorem State.wires_exchange (s : State) (x : LinkId) : OnlyWires s (s.exchange x) := by
  obtain ⟨ssel, sdo, l, h⟩ := s.exchange_only x
  exact ⟨l, s.linkB, s.gap, s.silent, ssel, sdo, s.resetnHigh, h⟩

theorem State.wires_storeByte (s : State) (x : LinkId) (b : Byte) : OnlyWires s (s.storeByte x b) := by
  unfold State.storeByte
  dsimp only
  split_ifs
  · exact s.wires_setParser x _ _
  · exact .refl s
  · exact s.wires_setParser x _ _

theorem State.wires_refuseAtOnce (s : State) (x : LinkId) (r : Request) (st : Status) :
    OnlyWires s (s.refuseAtOnce x r st) := by
  unfold State.refuseAtOnce
  split_ifs
  · exact s.wires_pushReply x _
  · exact s.wires_notify x _

theorem State.wires_frameComplete (s : State) (x : LinkId) (frame : List Byte) :
    OnlyWires s (s.frameComplete x frame) := by
  unfold State.frameComplete State.offer
  split_ifs
  · exact s.wires_notify x _
  · exact s.wires_notify x _
  · exact s.wires_refuseAtOnce x _ _
  · exact s.wires_refuseAtOnce x _ _
  · exact s.wires_modLink x _

theorem State.wires_truncate (s : State) (x : LinkId) : OnlyWires s (s.truncate x) := by
  unfold State.truncate
  split_ifs
  · exact .refl s
  · exact (State.wires_notify _ x _).after (s.wires_setParser x _ _)

/-! ## RESTART ENGINE and the link reset but for the links -/

/-- The gangs, lanes, access records and job numbers after RESTART ENGINE (R168). -/
def State.cleared (s : State) : State :=
  { s with
    gangs := Vector.replicate 8 none
    lanes := vecMap (fun _ l => l.freed) s.lanes
    dir := vecMap
      (fun _ e => { e with block := e.block.map fun b => { b with readers := [], writer := none, waiters := [], refs := 0 } })
      s.dir
    nextId := 1 }

theorem State.engineRestart_eq (s : State) :
    s.engineRestart =
      ((((s.cleared.orphanEdges .a fun _ => true).orphanEdges .b fun _ => true).syncGone .a fun _ => true).syncGone .b
        fun _ => true) := by
  rfl

theorem State.wires_engineRestart (s : State) : OnlyWires s.cleared s.engineRestart := by
  rw [State.engineRestart_eq]
  exact (State.wires_resolveSyncOf _ .b _ _).after ((State.wires_resolveSyncOf _ .a _ _).after
    ((State.wires_orphanEdges _ .b _).after (State.wires_orphanEdges _ .a _)))

theorem State.wires_linkReset (s : State) (x : LinkId) : OnlyWires (s.teardown x) (s.linkReset x) := by
  have h : OnlyWires (s.teardown x) (((s.teardown x).syncGone x.other (s.ownedBy x)).setLink x .init) :=
    (State.wires_setLink _ x _).after (State.wires_resolveSyncOf _ x.other _ _)
  cases x
  · exact h
  · exact h.trans ⟨_, _, .stopped, _, _, _, _, rfl⟩

/-! ## A step behind the links -/

/-- What a property that does not speak of the links needs to be kept by every step. -/
structure KeptBehindLinks (P : State → Prop) : Prop where
  wires : ∀ {s t : State}, OnlyWires s t → P s → P t
  store : ∀ {s t : State}, s.mode = .ready → StoreEffect s t → P s → P t
  gang : ∀ {s t : State}, s.mode = .ready → GangEffect s t → P s → P t
  teardown : ∀ (s : State) (x : LinkId), P s → P (s.teardown x)
  cleared : ∀ s : State, P s → P s.cleared
  restarted : ∀ (s : State) (rsel : Fin 4) (mode : PartMode) (started : Bool) (store : Mem) (rate : Rate),
    mode ≠ .ready → store = s.store ∨ store = [] → P s →
      P { s.fullRestart rsel with mode := mode, started := started, store := store, rate := rate }
  startupEnded : ∀ s : State, s.mode ≠ .ready → P s → P { s with mode := .ready, started := true, store := [] }
  sensed : ∀ (s : State) (i : LaneId) (high : Bool) (board : Board), P s → P ((s.setFlgPin i high).senseBoard board)
  holdRecorded : ∀ (s : State) (i : LaneId) (high : Bool), s.mode ≠ .ready → P s → P (s.setHoldPin i high)

namespace KeptBehindLinks

variable {P : State → Prop}

theorem effect (hP : KeptBehindLinks P) {s t : State} (hready : s.mode = .ready) (h : Effect s t) (hs : P s) : P t := by
  cases h with
  | same => exact hs
  | store h => exact hP.store hready h hs
  | gang h => exact hP.gang hready h hs

theorem linkReset (hP : KeptBehindLinks P) (s : State) (x : LinkId) (hs : P s) : P (s.linkReset x) :=
  hP.wires (s.wires_linkReset x) (hP.teardown s x hs)

theorem stepCase (hP : KeptBehindLinks P) {s t : State} (h : StepCase s t) (hs : P s) : P t := by
  have hpopped : ∀ (x : LinkId) (rest : List Request), P (s.popped x rest) := fun x rest =>
    hP.wires (s.wires_popped x rest) hs
  cases h with
  | idle => exact hs
  | refused htake payload => exact hP.wires (s.wires_answered _ _ _ _) hs
  | @carried x r rest u htake payload heffect =>
    have hmode : (s.popped x rest).mode = .ready := (s.setLink_mode x _).trans htake.1
    exact hP.wires (u.wires_pushReply _ _) (hP.effect hmode heffect (hpopped _ _))
  | syncHeld htake g timeout => exact hP.wires (State.wires_holdSync _ _ _ g timeout) (hpopped _ _)
  | @engineRestarted x r rest htake =>
    refine hP.wires ?_ (hP.cleared _ (hpopped x rest))
    exact (State.wires_notify _ .b _).after ((State.wires_notify _ .a _).after
      ((State.wires_pushReply _ _ _).after (State.wires_engineRestart _)))
  | @detached x r rest htake reply body =>
    exact hP.wires ((State.wires_notify _ x _).after (State.wires_pushReply _ x _)) (hP.linkReset _ x (hpopped _ _))
  | broken body hready =>
    refine hP.wires ?_ (hP.linkReset s .b hs)
    exact (State.wires_notify _ .b _).after ⟨_, _, _, _, _, _, _, rfl⟩
  | effect hready heffect => exact hP.effect hready heffect hs
  | syncAnswered x payload => exact hP.wires (s.wires_resolveSyncOf x _ payload) hs
  | byteStored x b => exact hP.wires ((State.wires_storeByte _ x b).after (s.wires_exchange x)) hs
  | exchanged x => exact hP.wires (s.wires_exchange x) hs
  | oversized x =>
    exact hP.wires ((State.wires_notify _ x _).after ((State.wires_setParser _ x _ _).after (s.wires_exchange x))) hs
  | completed x frame =>
    exact hP.wires ((State.wires_frameComplete _ x frame).after
      ((State.wires_setParser _ x _ _).after (s.wires_exchange x))) hs
  | gapEnded => exact hP.wires ((State.wires_truncate _ .b).after ⟨_, _, _, _, _, _, _, rfl⟩) hs
  | deselected frame =>
    have hpins : OnlyWires s { s with ssel := false, sdo := none } := ⟨_, _, _, _, _, _, _, rfl⟩
    split_ifs
    · exact hP.wires ((State.wires_truncate _ .a).after hpins) hs
    · exact hP.wires hpins hs
  | begun x => exact hP.wires (s.wires_modLink x _) hs
  | sent x => exact hP.wires (s.wires_modLink x _) hs
  | lineHigh => exact hP.wires ⟨_, _, _, _, _, _, _, rfl⟩ hs
  | restarted rsel hmode hstore hsdo =>
    exact hP.wires ⟨_, _, _, _, _, _, _, rfl⟩ (hP.restarted s rsel _ _ _ _ hmode hstore hs)
  | resetnMoved level => exact hP.wires ⟨_, _, _, _, _, _, level, rfl⟩ hs
  | startupEnded body hmode =>
    exact hP.wires ((State.wires_notify _ .b _).after (State.wires_notify _ .a _)) (hP.startupEnded s hmode hs)
  | flgRecorded i high board => exact hP.sensed s i high board hs
  | holdRecorded i high hmode => exact hP.holdRecorded s i high hmode hs

/-- A step of the machine takes the command from the queue first. -/
theorem step (hP : KeptBehindLinks P) (hqueue : ∀ s rest, P s → P { s with pending := rest }) {s t : State} (hs : P s)
    (h : step s = .next t) : P t := by
  unfold Machine.step at h
  split at h
  · cases h
    exact hs
  · rename_i c rest _
    exact hP.stepCase (exec_cases h) (hqueue s rest hs)

end KeptBehindLinks

/-! ## Changes of the gang table alone -/

/-- Nothing but the lanes, the pins, the gang table, the job id counter and the count of readings differs. -/
def OnlyTable (s t : State) : Prop :=
  ∃ (lanes : Vector Lane 10) (pins : Vector LanePins 10) (gangs : Vector (Option Gang) 8) (nextId fresh : Nat),
    t = { s with lanes := lanes, pins := pins, gangs := gangs, nextId := nextId, fresh := fresh }

/-- A chain of writes of engines and of changes of the gang table. -/
abbrev Calm : State → State → Prop := Relation.ReflTransGen fun s t => EngineWrite True s t ∨ OnlyTable s t

theorem Calm.of_engine {p : Prop} {s t : State} (h : Engine p s t) : Calm s t :=
  (h.mono fun _ => trivial).keeps (P := Calm s) (fun _ _ hw hu => hu.tail (.inl hw)) .refl

theorem Calm.of_table {s t : State} (h : OnlyTable s t) : Calm s t := .single (.inr h)

/-- An engine's writes after a change of the table. -/
theorem Calm.engine_after {p : Prop} {s t u : State} (h : Engine p t u) (hfirst : OnlyTable s t) : Calm s u :=
  Relation.ReflTransGen.trans (Calm.of_table hfirst) (Calm.of_engine h)

theorem Calm.keeps {P : State → Prop} (hwrite : ∀ s t, EngineWrite True s t → P s → P t)
    (htable : ∀ s t, OnlyTable s t → P s → P t) {s t : State} (h : Calm s t) (hs : P s) : P t := by
  induction h with
  | refl => exact hs
  | tail _ hlast ih =>
    rcases hlast with hw | ht
    · exact hwrite _ _ hw ih
    · exact htable _ _ ht ih

/-- SUBMIT's acceptance before the activation of the job (R119). -/
def State.queued (s : State) (g : GangId) (J : Job) : State :=
  (({ s with nextId := nextCandidate J.id } : State).modBlock J.slot fun b => { b with refs := b.refs + 1 }).modGang g
    fun G => { G with queue := G.queue ++ [J] }

theorem State.accept_cases (s : State) (g : GangId) (J : Job) (wasEmpty : Bool) :
    s.accept g J wasEmpty = if wasEmpty then (s.queued g J).activate g else s.queued g J := by
  rfl

/-- The effects on gangs and jobs touch the store only by samples, and the directory only in the access records. -/
theorem GangEffect.calm {s t : State} (h : GangEffect s t) : Calm s t := by
  cases h with
  | formed x watched hfit hlanes hfree => exact .of_table ⟨_, _, _, _, _, rfl⟩
  | dissolved hG hqueue =>
    exact .engine_after (p := True) (.single (.marked _ _ _)) ⟨_, _, _, _, _, rfl⟩
  | configured c hG hqueue => exact .of_table ⟨_, _, _, _, _, rfl⟩
  | timed time hG hqueue => exact .of_table ⟨_, _, _, _, _, rfl⟩
  | latched bytes hG hmode => exact .of_table ⟨_, _, _, _, _, rfl⟩
  | sensed board => exact .of_table ⟨_, _, _, _, _, rfl⟩
  | control level hG hmode => exact .of_engine (p := True) (s.engine_setCtl _ level)
  | @accepted g G b f slot gen beats hG hb hroom =>
    have hnumbered : OnlyTable s { s with nextId := nextCandidate s.issueId } := ⟨_, _, _, _, _, rfl⟩
    have hraised := State.engine_modBlock (p := True) { s with nextId := nextCandidate s.issueId } slot
      (f := fun b => { b with refs := b.refs + 1 }) fun _ => rfl
    have hqueued : Calm s (s.queued g (newJob s.issueId f slot gen beats)) :=
      (Calm.engine_after hraised hnumbered).trans (Calm.of_table ⟨_, _, _, _, _, rfl⟩)
    rw [State.accept_cases]
    split_ifs
    · exact hqueued.trans (Calm.of_engine (p := True) (State.engine_activate _ g))
    · exact hqueued
  | cancelled hf => exact .of_engine (p := True) (State.engine_cancelJob hf)
  | halted hG hqueue => exact .of_engine (p := True) (State.engine_haltGang hG hqueue)
  | paused hG => exact .of_engine (p := True) (s.engine_pauseGang _ _)
  | resumed hG => exact .of_engine (p := True) (s.engine_resumeGang _ _)
  | flgChanged i high board => exact .engine_after (State.engine_flgSeen _ i) ⟨_, _, _, _, _, rfl⟩
  | holdChanged i high => exact .engine_after (p := True) (State.engine_holdSeen _ i s) ⟨_, _, _, _, _, rfl⟩
  | settled g board hactive hdue => exact .engine_after (State.engine_settleDone _ g) ⟨_, _, _, _, _, rfl⟩
  | pulseEnded g => exact .of_engine (p := True) (s.engine_pulseDone g)
  | periodEnded g => exact .of_engine (p := True) (s.engine_periodDone g)
  | expired g => exact .of_engine (p := True) (s.engine_beatExpired g)

/-! ## The store bytes (R1) -/

theorem EngineWrite.store_wf {p : Prop} {s t : State} (h : EngineWrite p s t) (hs : s.store.wf) : t.store.wf := by
  have hlink : ∀ (x : LinkId) (l : Link), (s.setLink x l).store.wf := fun x l => by rwa [State.setLink_store]
  cases h with
  | gang | lanes | block => exact hs
  | notified x body => exact hlink x _
  | marked x f => exact hlink x _
  | syncAnswered x payload =>
    obtain ⟨_, _, h⟩ := s.resolveSync_only x payload
    rw [h]
    exact hs
  | bytes _ a bs => exact Mem.setBytes_wf hs a bs

theorem State.endPack_store (s : State) (stopped : Bool) : (s.endPack stopped).store = s.store := by
  unfold State.endPack
  cases s.pack.link with
  | none => rfl
  | some x => exact s.notify_store x _

theorem StoreEffect.store_wf {s t : State} (h : StoreEffect s t) (hs : s.store.wf) : t.store.wf := by
  cases h with
  | created fill hslot hsize hidle hfit => exact Mem.fill_wf hs _ _ fill
  | destroyed | packStarted | packStopping => exact hs
  | written a bs => exact Mem.setBytes_wf hs a bs
  | filled a n b => exact Mem.fill_wf hs a n b
  | packEnded stopped hrun hmove => rwa [State.endPack_store]
  | visited hrun hmove hb =>
    unfold State.visitBlock
    split
    · exact hs
    · split_ifs <;> exact hs
  | @moved m hm =>
    have hmoved : ((s.finishMove m).evaluate m.slot).store.wf := by
      rw [(State.engine_evaluate (p := False) (s.finishMove m) m.slot).store]
      exact Mem.copy_wf hs _ _ _
    split_ifs
    · rwa [State.endPack_store]
    · exact hmoved

/-- The teardown of a link's gangs before the grant evaluations (R134). -/
def State.tornDown (s : State) (x : LinkId) : State :=
  ((s.forgetJobs (s.ownedBy x)).freeGangs (s.ownedBy x)).freeLanes (s.ownedBy x)

/-- The blocks that hold an entry of a link's gangs. -/
def State.touchedBy (s : State) (x : LinkId) : List SlotId :=
  (s.blocks.filter fun e => e.2.mentions (s.ownedBy x)).map Prod.fst

theorem State.teardown_eq (s : State) (x : LinkId) :
    s.teardown x = (s.touchedBy x).foldl State.evaluate (s.tornDown x) := by
  rfl

theorem keptBehindLinks_storeCanonical : KeptBehindLinks State.StoreCanonical where
  wires := by
    rintro s t ⟨_, _, _, _, _, _, _, rfl⟩ hs
    exact hs
  store _ h hs := h.store_wf hs
  gang _ h hs := h.calm.keeps (P := State.StoreCanonical) (fun _ _ hw => hw.store_wf)
    (by rintro _ _ ⟨_, _, _, _, _, rfl⟩ h; exact h) hs
  teardown s x hs := by
    show (s.teardown x).store.wf
    rw [State.teardown_eq, (State.engine_evaluates (p := False) _ _).store]
    exact hs
  cleared _ hs := hs
  restarted s rsel _ _ store _ _ hstore hs := by
    rcases hstore with rfl | rfl
    · exact hs
    · exact Mem.nil_wf
  startupEnded _ _ _ := Mem.nil_wf
  sensed _ _ _ _ hs := hs
  holdRecorded _ _ _ _ hs := hs

/-- Settles O5: only samples, writes, fills and moves change the cells, and each keeps their form. -/
theorem storeStaysCanonical : Obligations.StoreStaysCanonical :=
  fun _ _ hs h => keptBehindLinks_storeCanonical.step (fun _ _ hs => hs) hs h

/-! ## The queue of commands -/

theorem EngineWrite.pending {p : Prop} {s t : State} (h : EngineWrite p s t) : t.pending = s.pending :=
  (Engine.single h).fields.2.2.2.2.2.2.2.2.2.2.2.1

theorem GangEffect.pending {s t : State} (h : GangEffect s t) : t.pending = s.pending :=
  h.calm.keeps (P := fun u => u.pending = s.pending) (fun _ _ hw hu => hw.pending.trans hu)
    (by rintro _ _ ⟨_, _, _, _, _, rfl⟩ h; exact h) rfl

theorem State.evaluate_pending (s : State) (i : SlotId) : (s.evaluate i).pending = s.pending := by
  obtain ⟨_, _, _, h⟩ := s.onlyWork_evaluate i
  rw [h]

theorem State.evaluates_pending (l : List SlotId) (s : State) : (l.foldl State.evaluate s).pending = s.pending := by
  induction l generalizing s with
  | nil => rfl
  | cons i is ih => exact (ih _).trans (s.evaluate_pending i)

theorem State.endPack_pending (s : State) (stopped : Bool) : (s.endPack stopped).pending = s.pending := by
  unfold State.endPack
  cases s.pack.link with
  | none => rfl
  | some x => exact s.notify_pending x _

theorem StoreEffect.pending {s t : State} (h : StoreEffect s t) : t.pending = s.pending := by
  cases h with
  | created | destroyed | packStarted | packStopping | written | filled => rfl
  | packEnded stopped => exact s.endPack_pending stopped
  | visited =>
    unfold State.visitBlock
    split
    · rfl
    · split_ifs <;> rfl
  | @moved m hm =>
    have hmoved : ((s.finishMove m).evaluate m.slot).pending = s.pending := State.evaluate_pending _ m.slot
    split_ifs
    · rw [State.endPack_pending, hmoved]
    · exact hmoved

/-- No command touches the queue of commands. -/
theorem keptBehindLinks_pending (pending : List Instr) : KeptBehindLinks fun s => s.pending = pending where
  wires := by
    rintro s t ⟨_, _, _, _, _, _, _, rfl⟩ hs
    exact hs
  store _ h hs := h.pending.trans hs
  gang _ h hs := h.pending.trans hs
  teardown s x hs := by rw [State.teardown_eq, State.evaluates_pending]; exact hs
  cleared _ hs := hs
  restarted _ _ _ _ _ _ _ _ hs := hs
  startupEnded _ _ hs := hs
  sensed _ _ _ _ hs := hs
  holdRecorded _ _ _ _ hs := hs

/-- Settles O2: no arm of `exec` faults or refuses, and none writes the queue. -/
theorem everyCommandAnswersNext : Obligations.EveryCommandAnswersNext := by
  refine ⟨fun c s => ?_, fun s hempty => by unfold step; rw [hempty]⟩
  have hnext : ∃ t, exec c s = .next t := by cases c <;> exact ⟨_, rfl⟩
  obtain ⟨t, h⟩ := hnext
  exact ⟨t, h, (keptBehindLinks_pending s.pending).stepCase (exec_cases h) rfl⟩

/-- Settles O1, by the definition of a step. -/
theorem stepRunsTheFrontCommand : Obligations.StepRunsTheFrontCommand := by
  intro s c rest hpending
  unfold step
  rw [hpending]

/-- Settles O12: every request row is a taking (R149). -/
theorem takingNeedsAFreeLink : Obligations.TakingNeedsAFreeLink := by
  intro c x s hlink hcan
  cases c <;> cases hlink <;> exact congrArg Host.Outcome.next (State.take_none hcan _ _)

end Sys2Proof.Machine
end

section
/-! PROOFS. The free list (R6, R8, R9) and the layout of the store (R7, R39, R43): how many extents and blocks take a
granule, and that every step leaves exactly one. -/

namespace Sys2Proof.Machine

/-! ## Sums over a list of places -/

/-- Two sums over places that agree in all places but one. -/
theorem sum_map_update {α : Type} {f g : α → Nat} {i : α} (hfg : ∀ j, j ≠ i → f j = g j) {l : List α} (hl : l.Nodup)
    (hi : i ∈ l) : (l.map f).sum + g i = (l.map g).sum + f i := by
  induction l with
  | nil => cases hi
  | cons j js ih =>
    obtain ⟨hj, hjs⟩ := List.nodup_cons.1 hl
    simp only [List.map_cons, List.sum_cons]
    by_cases hij : i = j
    · subst hij
      have hrest : js.map f = js.map g := List.map_congr_left fun k hk => hfg k fun h => hj (h ▸ hk)
      rw [hrest]
      omega
    · have := ih hjs ((List.mem_cons.1 hi).resolve_left hij)
      have := hfg j fun h => hij h.symm
      omega

theorem countP_eq_sum {α : Type} (p : α → Bool) (l : List α) : l.countP p = (l.map fun a => (p a).toNat).sum := by
  induction l with
  | nil => rfl
  | cons a l ih =>
    rw [List.countP_cons, ih, List.map_cons, List.sum_cons]
    cases p a <;> simp [Nat.add_comm]

/-! ## How many extents take a granule -/

/-- 1 for a granule from `low` up to `high`, 0 for every other. -/
def within (low high n : Nat) : Nat := if low ≤ n ∧ n < high then 1 else 0

theorem within_of {low high n : Nat} (h : low ≤ n) (h' : n < high) : within low high n = 1 := if_pos ⟨h, h'⟩

theorem within_pos_iff {low high n : Nat} : 0 < within low high n ↔ low ≤ n ∧ n < high := by
  unfold within
  split_ifs with h
  · simp [h]
  · simp [h]

theorem within_le_one (low high n : Nat) : within low high n ≤ 1 := by
  unfold within
  split_ifs <;> decide

/-- A run of granules falls into its part below a granule and its part above. -/
theorem within_split {low mid high : Nat} (h : low ≤ mid) (h' : mid ≤ high) (n : Nat) :
    within low high n = within low mid n + within mid high n := by
  unfold within
  split_ifs <;> omega

/-- How many extents of a list take a granule. -/
def takenBy (l : List Extent) (n : Nat) : Nat := l.countP fun e => e.covers n

@[simp] theorem takenBy_nil (n : Nat) : takenBy [] n = 0 := rfl

theorem takenBy_cons (e : Extent) (l : List Extent) (n : Nat) :
    takenBy (e :: l) n = within e.base (e.base + e.count) n + takenBy l n := by
  rw [takenBy, List.countP_cons, takenBy, Nat.add_comm, within]
  simp [Extent.covers]

theorem takenBy_append (l m : List Extent) (n : Nat) : takenBy (l ++ m) n = takenBy l n + takenBy m n :=
  List.countP_append ..

theorem takenBy_pos_iff {l : List Extent} {n : Nat} : 0 < takenBy l n ↔ ∃ e ∈ l, e.covers n = true := by
  simp [takenBy, List.countP_pos_iff]

/-- In a sound list a granule lies in one extent at most. -/
theorem takenBy_le_one {l : List Extent} (hl : l.Pairwise fun e f => e.base + e.count < f.base) (n : Nat) :
    takenBy l n ≤ 1 := by
  induction l with
  | nil => simp
  | cons e l ih =>
    obtain ⟨he, hl⟩ := List.pairwise_cons.1 hl
    have hrest : 0 < within e.base (e.base + e.count) n → takenBy l n = 0 := by
      intro hn
      by_contra hpos
      obtain ⟨f, hf, hcov⟩ := takenBy_pos_iff.1 (Nat.pos_of_ne_zero hpos)
      simp only [Extent.covers, decide_eq_true_eq] at hcov
      have := he f hf
      have := within_pos_iff.1 hn
      omega
    have := ih hl
    have := within_le_one e.base (e.base + e.count) n
    rw [takenBy_cons]
    omega

/-! ## Returned granules (R8) -/

/-- What a return of granules does at the first extent: it joins both neighbours, the lower one or the upper one, stands
before the extent, or goes on behind it. -/
theorem giveBack_cons_cases {P : List Extent → Prop} {e x : Extent} {xs : List Extent}
    (hboth : ∀ h rest, xs = h :: rest → x.base + x.count = e.base → e.base + e.count = h.base →
      P (⟨x.base, x.count + e.count + h.count⟩ :: rest))
    (hlower : x.base + x.count = e.base → (∀ h ∈ xs.head?, e.base + e.count ≠ h.base) →
      P (⟨x.base, x.count + e.count⟩ :: xs))
    (hupper : e.base + e.count = x.base → P (⟨e.base, e.count + x.count⟩ :: xs))
    (hbefore : e.base + e.count ≠ x.base → e.base < x.base → P (e :: x :: xs))
    (hbehind : x.base + x.count ≠ e.base → ¬ e.base < x.base → P (x :: giveBack e xs)) : P (giveBack e (x :: xs)) := by
  rw [giveBack.eq_def]
  dsimp only
  split
  · rename_i hbelow
    split
    · rename_i h rest
      split
      · exact hboth h rest rfl hbelow ‹_›
      · rename_i habove
        exact hlower hbelow fun k hk => by cases hk; exact habove
    · exact hlower hbelow (by simp)
  · rename_i hbelow
    split
    · exact hupper ‹_›
    · rename_i habove
      split
      · exact hbefore habove ‹_›
      · exact hbehind hbelow ‹_›

theorem takenBy_giveBack (e : Extent) (l : List Extent) (n : Nat) :
    takenBy (giveBack e l) n = takenBy l n + within e.base (e.base + e.count) n := by
  induction l with
  | nil => simp [giveBack, takenBy_cons]
  | cons x xs ih =>
    refine giveBack_cons_cases (P := fun m => takenBy m n = takenBy (x :: xs) n + _) ?_ ?_ ?_ ?_ ?_
    · rintro h rest rfl hbelow habove
      have hjoin := within_split (low := x.base) (mid := h.base) (high := h.base + h.count) (by omega) (by omega) n
      have hjoin' := within_split (low := x.base) (mid := e.base) (high := h.base) (by omega) (by omega) n
      simp only [takenBy_cons]
      rw [show x.base + (x.count + e.count + h.count) = h.base + h.count by omega, hbelow, habove]
      omega
    · intro hbelow _
      have hjoin := within_split (low := x.base) (mid := e.base) (high := e.base + e.count) (by omega) (by omega) n
      simp only [takenBy_cons]
      rw [show x.base + (x.count + e.count) = e.base + e.count by omega, hbelow]
      omega
    · intro habove
      have hjoin := within_split (low := e.base) (mid := x.base) (high := x.base + x.count) (by omega) (by omega) n
      simp only [takenBy_cons]
      rw [show e.base + (e.count + x.count) = x.base + x.count by omega, habove]
      omega
    · intro _ _
      simp only [takenBy_cons]
      omega
    · intro _ _
      simp only [takenBy_cons, ih]
      omega

theorem sum_giveBack (e : Extent) (l : List Extent) :
    ((giveBack e l).map Extent.count).sum = (l.map Extent.count).sum + e.count := by
  induction l with
  | nil => simp [giveBack]
  | cons x xs ih =>
    refine giveBack_cons_cases (P := fun m => (m.map Extent.count).sum = ((x :: xs).map Extent.count).sum + e.count)
      ?_ ?_ ?_ ?_ ?_
    · rintro h rest rfl _ _
      simp only [List.map_cons, List.sum_cons]
      omega
    all_goals
      intros
      simp only [List.map_cons, List.sum_cons, ih]
      omega

/-- An extent of the new list begins where the returned one or an old one began. -/
theorem base_of_mem_giveBack {e : Extent} {l : List Extent} :
    ∀ h ∈ giveBack e l, h.base = e.base ∨ ∃ k ∈ l, h.base = k.base := by
  induction l with
  | nil => simp [giveBack]
  | cons x xs ih =>
    refine giveBack_cons_cases (P := fun m => ∀ h ∈ m, h.base = e.base ∨ ∃ k ∈ x :: xs, h.base = k.base) ?_ ?_ ?_ ?_ ?_
    · rintro y rest rfl _ _ h hh
      rcases List.mem_cons.1 hh with rfl | hh
      · exact .inr ⟨x, by simp, rfl⟩
      · exact .inr ⟨h, by simp [hh], rfl⟩
    · intro _ _ h hh
      rcases List.mem_cons.1 hh with rfl | hh
      · exact .inr ⟨x, by simp, rfl⟩
      · exact .inr ⟨h, by simp [hh], rfl⟩
    · intro _ h hh
      rcases List.mem_cons.1 hh with rfl | hh
      · exact .inl rfl
      · exact .inr ⟨h, by simp [hh], rfl⟩
    · intro _ _ h hh
      rcases List.mem_cons.1 hh with rfl | hh
      · exact .inl rfl
      · exact .inr ⟨h, hh, rfl⟩
    · intro _ _ h hh
      rcases List.mem_cons.1 hh with rfl | hh
      · exact .inr ⟨h, by simp, rfl⟩
      · exact (ih h hh).imp_right fun ⟨k, hk, hbase⟩ => ⟨k, List.mem_cons_of_mem _ hk, hbase⟩

/-- An extent in front of a sound list that begins behind it. -/
theorem freeListSound_cons {e : Extent} {l : List Extent} (hl : FreeListSound l) (hpos : 1 ≤ e.count)
    (hfit : e.base + e.count ≤ 2048) (hbehind : ∀ h ∈ l, e.base + e.count < h.base) : FreeListSound (e :: l) :=
  ⟨List.pairwise_cons.2 ⟨hbehind, hl.1⟩, List.forall_mem_cons.2 ⟨⟨hpos, hfit⟩, hl.2⟩⟩

theorem freeListSound_uncons {e : Extent} {l : List Extent} (h : FreeListSound (e :: l)) :
    FreeListSound l ∧ 1 ≤ e.count ∧ e.base + e.count ≤ 2048 ∧ ∀ f ∈ l, e.base + e.count < f.base := by
  obtain ⟨hpair, hsize⟩ := h
  obtain ⟨he, hl⟩ := List.pairwise_cons.1 hpair
  obtain ⟨hsizee, hsizes⟩ := List.forall_mem_cons.1 hsize
  exact ⟨⟨hl, hsizes⟩, hsizee.1, hsizee.2, he⟩

theorem giveBack_sound {e : Extent} {l : List Extent} (hl : FreeListSound l) (hpos : 1 ≤ e.count)
    (hfit : e.base + e.count ≤ 2048)
    (hout : ∀ h ∈ l, h.base + h.count ≤ e.base ∨ e.base + e.count ≤ h.base) : FreeListSound (giveBack e l) := by
  induction l with
  | nil => exact freeListSound_cons hl hpos hfit (by simp)
  | cons x xs ih =>
    obtain ⟨hxs, hposx, hfitx, hx⟩ := freeListSound_uncons hl
    obtain ⟨houtx, houts⟩ := List.forall_mem_cons.1 hout
    refine giveBack_cons_cases (P := FreeListSound) ?_ ?_ ?_ ?_ ?_
    · rintro h rest rfl hbelow habove
      obtain ⟨hrest, hposh, hfith, hh⟩ := freeListSound_uncons hxs
      refine freeListSound_cons hrest (by dsimp only; omega) (by dsimp only; omega) fun k hk => ?_
      have := hh k hk
      dsimp only
      omega
    · intro hbelow habove
      refine freeListSound_cons hxs (by dsimp only; omega) (by dsimp only; omega) fun k hk => ?_
      cases xs with
      | nil => cases hk
      | cons h rest =>
        obtain ⟨-, hposh, -, hh⟩ := freeListSound_uncons hxs
        have hxh := hx h (by simp)
        have houth := houts h (by simp)
        have hne := habove h rfl
        have hbase : h.base ≤ k.base := by
          rcases List.mem_cons.1 hk with rfl | hk
          · exact le_rfl
          · have := hh k hk
            omega
        dsimp only
        omega
    · intro habove
      refine freeListSound_cons hxs (by dsimp only; omega) (by dsimp only; omega) fun k hk => ?_
      have := hx k hk
      dsimp only
      omega
    · intro habove hfirst
      refine freeListSound_cons hl hpos hfit fun k hk => ?_
      rcases List.mem_cons.1 hk with rfl | hk
      · omega
      · have := hx k hk
        omega
    · intro hbelow hfirst
      refine freeListSound_cons (ih hxs houts) hposx hfitx fun k hk => ?_
      rcases base_of_mem_giveBack k hk with hbase | ⟨y, hy, hbase⟩
      · omega
      · have := hx y hy
        omega

/-! ## Allocated granules (R9) -/

/-- First-fit finds the first extent that is large enough. -/
theorem allocate_append {n : Nat} {low high : List Extent} {e : Extent} (hlow : ∀ h ∈ low, h.count < n)
    (he : n ≤ e.count) : allocate n (low ++ e :: high) = some (e.base, cutExtent n low e high) := by
  induction low with
  | nil =>
    rw [List.nil_append, allocate, cutExtent]
    split_ifs with h1 h2
    · rfl
    · rfl
    · omega
  | cons x xs ih =>
    obtain ⟨hx, hxs⟩ := List.forall_mem_cons.1 hlow
    rw [List.cons_append, allocate, if_neg (by omega), if_neg (by omega), ih hxs]
    rfl

theorem allocate_eq_some_iff {n base : Nat} {l m : List Extent} :
    allocate n l = some (base, m) ↔
      ∃ (low : List Extent) (e : Extent) (high : List Extent),
        l = low ++ e :: high ∧ (∀ h ∈ low, h.count < n) ∧ n ≤ e.count ∧ base = e.base ∧ m = cutExtent n low e high := by
  refine ⟨allocate_eq_some, ?_⟩
  rintro ⟨low, e, high, rfl, hlow, he, rfl, rfl⟩
  exact allocate_append hlow he

/-- The granules of the list before: those allocated and those left. -/
theorem takenBy_allocate {n base : Nat} {l m : List Extent} (h : allocate n l = some (base, m)) (k : Nat) :
    takenBy l k = takenBy m k + within base (base + n) k := by
  obtain ⟨low, e, high, rfl, -, he, rfl, rfl⟩ := allocate_eq_some h
  have hcut := within_split (low := e.base) (mid := e.base + n) (high := e.base + e.count) (by omega) (by omega) k
  simp only [cutExtent, takenBy_append, takenBy_cons]
  split_ifs with hall
  · rw [hall]
    omega
  · rw [takenBy_cons]
    dsimp only
    rw [show e.base + n + (e.count - n) = e.base + e.count by omega]
    omega

theorem allocate_fits {n base : Nat} {l m : List Extent} (hl : FreeListSound l) (h : allocate n l = some (base, m)) :
    base + n ≤ 2048 := by
  obtain ⟨low, e, high, rfl, -, he, rfl, rfl⟩ := allocate_eq_some h
  have := (hl.2 e (by simp)).2
  omega

theorem allocate_sound {n base : Nat} {l m : List Extent} (hl : FreeListSound l)
    (h : allocate n l = some (base, m)) : FreeListSound m := by
  obtain ⟨low, e, high, rfl, -, he, rfl, rfl⟩ := allocate_eq_some h
  obtain ⟨hpair, hsize⟩ := hl
  obtain ⟨hlow, hcons, hcross⟩ := List.pairwise_append.1 hpair
  obtain ⟨hehigh, hhigh⟩ := List.pairwise_cons.1 hcons
  have hsizee := hsize e (by simp)
  rw [cutExtent]
  split_ifs with hall
  · exact ⟨List.pairwise_append.2 ⟨hlow, hhigh, fun a ha b hb => hcross a ha b (List.mem_cons_of_mem _ hb)⟩,
      fun k hk => hsize k (by simp only [List.mem_append, List.mem_cons] at hk ⊢; tauto)⟩
  · refine ⟨List.pairwise_append.2 ⟨hlow, List.pairwise_cons.2 ⟨fun k hk => ?_, hhigh⟩, fun a ha b hb => ?_⟩,
      fun k hk => ?_⟩
    · have := hehigh k hk
      dsimp only
      omega
    · rcases List.mem_cons.1 hb with rfl | hb
      · have := hcross a ha e (by simp)
        dsimp only
        omega
      · exact hcross a ha b (List.mem_cons_of_mem _ hb)
    · simp only [List.mem_append, List.mem_cons] at hk
      rcases hk with hk | rfl | hk
      · exact hsize k (by simp [hk])
      · dsimp only
        omega
      · exact hsize k (by simp [hk])

/-- Settles O22: by the count of the extents that take a granule, which a return raises and an allocation lowers on
exactly the granules concerned. -/
theorem freeListMergesAndAllocates : Obligations.FreeListMergesAndAllocates := by
  refine ⟨fun l e hl hpos hfit hout => ⟨giveBack_sound hl hpos hfit hout, fun n => ?_, sum_giveBack e l⟩,
    allocate_eq_none_iff, fun n base l m => allocate_eq_some_iff, fun n base l m hl hn h =>
      ⟨allocate_sound hl h, fun k hlow hhigh => ?_, fun k => ?_⟩⟩
  · rw [← takenBy_pos_iff, ← takenBy_pos_iff, takenBy_giveBack, Extent.covers, decide_eq_true_eq, ← within_pos_iff]
    omega
  · rw [← takenBy_pos_iff, takenBy_allocate h, within_of hlow hhigh]
    omega
  · have hle := takenBy_le_one hl.1 k
    have hsplit := takenBy_allocate h k
    have hcut := within_pos_iff (low := base) (high := base + n) (n := k)
    rw [← takenBy_pos_iff, ← takenBy_pos_iff, ← hcut]
    omega

/-! ## How many blocks take a granule -/

theorem State.takers_eq (s : State) (n : Nat) :
    s.takers n =
      ((List.finRange 48).map fun i => ((s.block i).any fun b => b.covers n).toNat).sum + takenBy s.free n := by
  rw [State.takers, takenBy, List.countP_eq_length_filter, ← countP_eq_sum, ← List.countP_eq_length_filter,
    State.blocks, List.countP_filterMap]
  congr 2
  funext i
  cases s.block i <;> rfl

/-- The takers after a change of one slot and of the free list. -/
theorem State.takers_update {s t : State} (i : SlotId) (hi : ∀ j, j ≠ i → t.block j = s.block j) (n : Nat) :
    t.takers n + ((s.block i).any fun b => b.covers n).toNat + takenBy s.free n =
      s.takers n + ((t.block i).any fun b => b.covers n).toNat + takenBy t.free n := by
  rw [State.takers_eq, State.takers_eq]
  have := sum_map_update (f := fun j => ((t.block j).any fun b => b.covers n).toNat)
    (g := fun j => ((s.block j).any fun b => b.covers n).toNat) (i := i) (fun j hj => by simp only [hi j hj])
    (List.nodup_finRange 48) (List.mem_finRange i)
  omega

theorem Block.covers_toNat (b : Block) (n : Nat) :
    (b.covers n).toNat = within (b.dest.getD b.base) (b.base + b.granules) n := by
  rw [Block.covers, within]
  split_ifs with h <;> simp [h]

/-! ## The layout is a matter of the free list, the pack unit and the places of the blocks -/

/-- The free list, the pack unit and the place of every block agree. -/
def SameLayout (s t : State) : Prop :=
  t.free = s.free ∧ t.pack = s.pack ∧ ∀ i : SlotId, (t.block i).map Block.place = (s.block i).map Block.place

theorem SameLayout.trans {s t u : State} (h : SameLayout s t) (k : SameLayout t u) : SameLayout s u :=
  ⟨k.1.trans h.1, k.2.1.trans h.2.1, fun i => (k.2.2 i).trans (h.2.2 i)⟩

theorem SameLayout.symm {s t : State} (h : SameLayout s t) : SameLayout t s :=
  ⟨h.1.symm, h.2.1.symm, fun i => (h.2.2 i).symm⟩

theorem Engine.layout {p : Prop} {s t : State} (h : Engine p s t) : SameLayout s t :=
  ⟨h.fields.2.1, h.fields.2.2.1, fun i => (h.place i).2⟩

/-- A block of one of the two states stands in the other with the same place. -/
theorem SameLayout.block {s t : State} (h : SameLayout s t) {i : SlotId} {b : Block} (hb : b ∈ t.block i) :
    ∃ b' ∈ s.block i, b'.size = b.size ∧ b'.base = b.base ∧ b'.dest = b.dest := by
  have hplace := h.2.2 i
  rw [show t.block i = some b from hb, Option.map_some, eq_comm, Option.map_eq_some_iff] at hplace
  obtain ⟨b', hb', heq⟩ := hplace
  simp only [Block.place, Prod.mk.injEq] at heq
  exact ⟨b', hb', heq.2⟩

theorem SameLayout.takers {s t : State} (h : SameLayout s t) (n : Nat) : t.takers n = s.takers n := by
  rw [State.takers_eq, State.takers_eq, h.1]
  congr 3
  funext i
  have hplace := h.2.2 i
  congr 1
  cases ht : t.block i with
  | none =>
    rw [ht, Option.map_none, eq_comm, Option.map_eq_none_iff] at hplace
    rw [hplace]
  | some b =>
    obtain ⟨b', hb', hsize, hbase, hdest⟩ := h.block (Option.mem_def.2 ht)
    rw [Option.mem_def.1 hb', Option.any_some, Option.any_some]
    exact decide_eq_decide.2 (by rw [Block.granules, Block.granules, hsize, hbase, hdest])

theorem SameLayout.sound {s t : State} (h : SameLayout s t) (hs : s.LayoutSound) : t.LayoutSound := by
  obtain ⟨hfree, hpart, hplaced, hmoving, hmove, hstate, hstop⟩ := hs
  refine ⟨h.1 ▸ hfree, fun n hn => (h.takers n).trans (hpart n hn), fun i b hb => ?_, fun i b hb hdest => ?_,
    fun m hm => ?_, ?_, ?_⟩
  · obtain ⟨b', hb', hsize, hbase, hdest⟩ := h.block hb
    have := hplaced i b' hb'
    simpa only [Block.Placed, Block.granules, hsize, hbase, hdest] using this
  · obtain ⟨b', hb', hsize, hbase, hdest'⟩ := h.block hb
    have := hmoving i b' hb' (hdest' ▸ hdest)
    rw [h.2.1, this]
    simp only [Block.granules, hsize, hbase, hdest']
  · rw [h.2.1] at hm
    have := hmove m hm
    rw [Option.any_eq_true] at this ⊢
    obtain ⟨b, hb, hd⟩ := this
    obtain ⟨b', hb', -, -, hdest⟩ := h.symm.block (Option.mem_def.2 hb)
    exact ⟨b', hb', by rwa [hdest]⟩
  · rwa [h.2.1]
  · rwa [h.2.1]

/-! ## The layout while nothing moves -/

/-- The free list is in order, every granule has one taker and every block is placed. -/
def State.GroundSound (s : State) : Prop :=
  FreeListSound s.free ∧ s.GranulesPartitioned ∧ ∀ (i : SlotId), ∀ b ∈ s.block i, b.Placed

theorem State.LayoutSound.ground {s : State} (h : s.LayoutSound) : s.GroundSound := ⟨h.1, h.2.1, h.2.2.1⟩

/-- While no move is in flight no block is MOVING. -/
theorem State.LayoutSound.still {s : State} (h : s.LayoutSound) (hmove : s.pack.move = none) (i : SlotId) :
    ∀ b ∈ s.block i, b.dest = none := by
  intro b hb
  by_contra hdest
  have := h.2.2.2.1 i b hb (Option.isSome_iff_ne_none.2 hdest)
  rw [hmove] at this
  cases this

theorem State.GroundSound.layout {s : State} (h : s.GroundSound) (hstill : ∀ i : SlotId, ∀ b ∈ s.block i, b.dest = none)
    (hmove : s.pack.move = none) (hstate : s.pack.state ≠ .stopping) : s.LayoutSound := by
  obtain ⟨hfree, hpart, hplaced⟩ := h
  refine ⟨hfree, hpart, hplaced, fun i b hb hdest => ?_, by simp [hmove], by simp [hmove], fun h => absurd h hstate⟩
  rw [hstill i b hb] at hdest
  cases hdest

/-- The ground does not depend on the pack unit or the links. -/
theorem State.GroundSound.of_eq {s t : State} (h : s.GroundSound) (hfree : t.free = s.free)
    (hblock : ∀ i, t.block i = s.block i) : t.GroundSound := by
  obtain ⟨h1, h2, h3⟩ := h
  refine ⟨hfree ▸ h1, fun n hn => ?_, fun i b hb => h3 i b (hblock i ▸ hb)⟩
  rw [← h2 n hn, State.takers_eq, State.takers_eq, hfree]
  simp only [hblock]

/-! ## DEFINE and DELETE -/

theorem State.create_block_self (s : State) (i : SlotId) (name : List Byte) (size base : Nat) (free : List Extent)
    (fill : Byte) : (s.create i name size base free fill).block i = some (newBlock name size base) := by
  simp [State.create, State.block]

theorem State.create_block_ne (s : State) {i j : SlotId} (name : List Byte) (size base : Nat) (free : List Extent)
    (fill : Byte) (h : j ≠ i) : (s.create i name size base free fill).block j = s.block j := by
  have : i.val ≠ j.val := fun e => h (Fin.ext e.symm)
  simp [State.create, State.block, this]

/-- Outside a move the pack state of a sound layout says that none is in flight. -/
theorem State.LayoutSound.idle {s : State} (h : s.LayoutSound) (hidle : s.pack.state = .idle) : s.pack.move = none := by
  by_contra hmove
  exact h.2.2.2.2.2.1 (Option.isSome_iff_ne_none.2 hmove) hidle

theorem State.LayoutSound.create {s : State} (h : s.LayoutSound) {i : SlotId} {name : List Byte} {size base : Nat}
    {free : List Extent} (fill : Byte) (hslot : s.freeSlot = some i) (hsize : size ≠ 0) (hidle : s.pack.state = .idle)
    (hfit : allocate (granulesOf size) s.free = some (base, free)) :
    (s.create i name size base free fill).LayoutSound := by
  obtain ⟨hfree, hpart, hplaced⟩ := h.ground
  have hself := s.create_block_self i name size base free fill
  have hempty := (State.freeSlot_lowest hslot).1
  have hblock : ∀ (P : Block → Prop), P (newBlock name size base) → (∀ j, ∀ b ∈ s.block j, P b) →
      ∀ j, ∀ b ∈ (s.create i name size base free fill).block j, P b := by
    intro P hnew hold j b hb
    by_cases hj : j = i
    · subst hj
      rw [hself] at hb
      cases hb
      exact hnew
    · rw [s.create_block_ne name size base free fill hj] at hb
      exact hold j b hb
  have hstate : (s.create i name size base free fill).pack.state ≠ .stopping := by
    show s.pack.state ≠ .stopping
    rw [hidle]
    decide
  refine State.GroundSound.layout ⟨allocate_sound hfree hfit, fun n hn => ?_, hblock _ ?_ hplaced⟩
    (hblock _ rfl (h.still (h.idle hidle))) (h.idle hidle) hstate
  · have hupdate := State.takers_update i (fun j hj => s.create_block_ne name size base free fill hj) n
    have hsplit := takenBy_allocate hfit n
    rw [hself, hempty, Option.any_some, Block.covers_toNat, hpart n hn] at hupdate
    simp only [newBlock, Option.getD_none, Block.granules, Option.any_none, Bool.toNat_false] at hupdate
    rw [show (s.create i name size base free fill).free = free from rfl] at hupdate
    omega
  · exact ⟨Nat.pos_of_ne_zero hsize, allocate_fits hfree hfit, by simp [newBlock]⟩

/-- The granules of a block that is not MOVING lie in no free extent. -/
theorem State.GroundSound.free_outside {s : State} (h : s.GroundSound) {i : SlotId} {b : Block} (hb : s.block i = some b)
    {e : Extent} (hpos : 1 ≤ e.count) (he : b.dest.getD b.base ≤ e.base) (hend : e.base + e.count ≤ b.base + b.granules) :
    ∀ f ∈ s.free, f.base + f.count ≤ e.base ∨ e.base + e.count ≤ f.base := by
  obtain ⟨⟨-, hsize⟩, hpart, hplaced⟩ := h
  intro f hf
  by_contra hover
  have hfpos := (hsize f hf).1
  have hbound := (hplaced i b hb).2.1
  have hmeet : ∃ n, e.base ≤ n ∧ n < e.base + e.count ∧ f.base ≤ n ∧ n < f.base + f.count :=
    ⟨max e.base f.base, by omega, by omega, by omega, by omega⟩
  obtain ⟨n, h1, h2, h3, h4⟩ := hmeet
  have htaken : 0 < takenBy s.free n := takenBy_pos_iff.2 ⟨f, hf, by simp [Extent.covers, h3, h4]⟩
  have hcount := hpart n (by omega)
  rw [State.takers_eq] at hcount
  have hblock : ((s.block i).any fun b => b.covers n).toNat = 1 := by
    rw [hb, Option.any_some, Block.covers_toNat, within_of (by omega) (by omega)]
  have hone := List.single_le_sum (l := (List.finRange 48).map fun i => ((s.block i).any fun b => b.covers n).toNat)
    (fun _ _ => Nat.zero_le _) _ (List.mem_map_of_mem (List.mem_finRange i))
  omega

theorem State.destroy_block_ne (s : State) {i j : SlotId} (b : Block) (h : j ≠ i) :
    (s.destroy i b).block j = s.block j :=
  s.setBlock_block_ne none h

theorem State.destroy_block_self (s : State) (i : SlotId) (b : Block) : (s.destroy i b).block i = none :=
  s.setBlock_block_self i none

theorem Block.Placed.granules_pos {b : Block} (h : b.Placed) : 1 ≤ b.granules :=
  granulesOf_pos (by have := h.1; omega)

theorem State.LayoutSound.destroy {s : State} (h : s.LayoutSound) {i : SlotId} {b : Block} (hb : s.block i = some b)
    (hdest : b.dest = none) : (s.destroy i b).LayoutSound := by
  obtain ⟨hfree, hpart, hplaced⟩ := h.ground
  have hblock : ∀ j, ∀ c ∈ (s.destroy i b).block j, j ≠ i ∧ c ∈ s.block j := by
    intro j c hc
    by_cases hj : j = i
    · subst hj
      rw [s.destroy_block_self] at hc
      cases hc
    · rw [s.destroy_block_ne b hj] at hc
      exact ⟨hj, hc⟩
  have hout := h.ground.free_outside hb (e := ⟨b.base, b.granules⟩)
    (hplaced i b hb).granules_pos (by simp [hdest]) (by simp)
  have hplacedb := hplaced i b hb
  refine ⟨giveBack_sound hfree hplacedb.granules_pos hplacedb.2.1 hout, fun n hn => ?_,
    fun j c hc => hplaced j c (hblock j c hc).2, fun j c hc => h.2.2.2.1 j c (hblock j c hc).2, fun m hm => ?_,
    h.2.2.2.2.2⟩
  · have hupdate := State.takers_update i (fun j hj => s.destroy_block_ne b hj) n
    have hsplit := takenBy_giveBack ⟨b.base, b.granules⟩ s.free n
    rw [s.destroy_block_self, hb, Option.any_some, Block.covers_toNat, hpart n hn, hdest] at hupdate
    simp only [Option.getD_none, Option.any_none, Bool.toNat_false] at hupdate
    rw [show (s.destroy i b).free = giveBack ⟨b.base, b.granules⟩ s.free from rfl] at hupdate
    dsimp only at hsplit
    omega
  · have hmoving := h.2.2.2.2.1 m hm
    have hne : m.slot ≠ i := by
      rintro rfl
      rw [hb, Option.any_some, hdest] at hmoving
      cases hmoving
    rwa [s.destroy_block_ne b hne]

/-! ## The pack unit -/

theorem State.endPack_block (s : State) (stopped : Bool) (i : SlotId) : (s.endPack stopped).block i = s.block i := by
  unfold State.endPack State.block
  cases s.pack.link with
  | none => rfl
  | some x => simp

theorem State.endPack_free (s : State) (stopped : Bool) : (s.endPack stopped).free = s.free := by
  unfold State.endPack
  cases s.pack.link with
  | none => rfl
  | some x => simp

theorem State.endPack_pack (s : State) (stopped : Bool) :
    (s.endPack stopped).pack = { s.pack with state := .idle, link := none } := by
  unfold State.endPack
  cases s.pack.link with
  | none => rfl
  | some x => simp

/-- A pack may end while nothing moves. -/
theorem State.GroundSound.endPack {s : State} (h : s.GroundSound) (hstill : ∀ i : SlotId, ∀ b ∈ s.block i, b.dest = none)
    (hmove : s.pack.move = none) (stopped : Bool) : (s.endPack stopped).LayoutSound := by
  refine (h.of_eq (s.endPack_free stopped) (s.endPack_block stopped)).layout
    (fun i b hb => hstill i b (s.endPack_block stopped i ▸ hb)) ?_ ?_
  · rw [s.endPack_pack]
    exact hmove
  · rw [s.endPack_pack]
    simp

/-- What the pack unit counts and where it stands does not matter to the layout. -/
theorem State.LayoutSound.withPack {s : State} (h : s.LayoutSound) {p : Pack} (hmove : p.move = s.pack.move)
    (hstate : p.state ≠ .idle) (hstop : p.state = .stopping → s.pack.move.isSome = true) :
    ({ s with pack := p } : State).LayoutSound := by
  obtain ⟨hfree, hpart, hplaced, hmoving, hagree, hactive, -⟩ := h
  refine ⟨hfree, hpart, hplaced, fun i b hb hd => ?_, fun m hm => hagree m (by rwa [← hmove]), fun _ => hstate, ?_⟩
  · exact hmove.trans (hmoving i b hb hd)
  · intro hs
    rw [show ({ s with pack := p } : State).pack = p from rfl, hmove]
    exact hstop hs

theorem State.mem_blocksByBase {s : State} {i : SlotId} {b : Block} :
    (i, b) ∈ s.blocksByBase ↔ s.block i = some b := by
  have hins : ∀ (e x : SlotId × Block) (l : List (SlotId × Block)), x ∈ insertByBase e l ↔ x = e ∨ x ∈ l := by
    intro e x l
    induction l with
    | nil => simp [insertByBase]
    | cons y ys ih =>
      rw [insertByBase]
      split_ifs
      · simp
      · simp only [List.mem_cons, ih]
        tauto
  have hfold : ∀ (x : SlotId × Block) (l : List (SlotId × Block)), x ∈ l.foldr insertByBase [] ↔ x ∈ l := by
    intro x l
    induction l with
    | nil => simp
    | cons y ys ih => rw [List.foldr_cons, hins, ih, List.mem_cons]
  rw [State.blocksByBase, hfold, State.mem_blocks]

theorem State.block_of_visitChoice {s : State} {i : SlotId} {b : Block} (h : s.visitChoice = some (i, b)) :
    s.block i = some b ∧ s.pack.cursor ≤ b.base :=
  ⟨State.mem_blocksByBase.1 (List.mem_of_find?_eq_some h), by simpa using List.find?_some h⟩

theorem extentBelow_spec {base : Nat} {l : List Extent} {e : Extent} (h : extentBelow base l = some e) :
    e ∈ l ∧ e.base + e.count = base :=
  ⟨List.mem_of_find?_eq_some h, by simpa using List.find?_some h⟩

theorem State.startMove_block_self {s : State} {i : SlotId} {b : Block} (hb : s.block i = some b) (e : Extent) :
    (s.startMove i b e).block i = some { b with dest := some e.base } :=
  (s.modBlock_block_self i _).trans (by rw [hb]; rfl)

theorem State.startMove_block_ne (s : State) {i j : SlotId} (b : Block) (e : Extent) (h : j ≠ i) :
    (s.startMove i b e).block j = s.block j :=
  s.modBlock_block_ne _ h

/-- One extent leaves a sound list. -/
theorem takenBy_filter_ne {l : List Extent} (hl : FreeListSound l) {e : Extent} (he : e ∈ l) (n : Nat) :
    takenBy l n = takenBy (l.filter fun h => h != e) n + within e.base (e.base + e.count) n := by
  obtain ⟨hpair, hsize⟩ := hl
  induction l with
  | nil => cases he
  | cons x xs ih =>
    obtain ⟨hx, hxs⟩ := List.pairwise_cons.1 hpair
    obtain ⟨hsizex, hsizes⟩ := List.forall_mem_cons.1 hsize
    by_cases hxe : x = e
    · subst hxe
      have hrest : (xs.filter fun h => h != x) = xs := by
        refine List.filter_eq_self.2 fun h hh => ?_
        have := hx h hh
        have hne : h ≠ x := by
          rintro rfl
          omega
        simpa using hne
      rw [takenBy_cons, List.filter_cons_of_neg (by simp), hrest]
      omega
    · rw [List.filter_cons_of_pos (by simpa using hxe), takenBy_cons, takenBy_cons,
        ih ((List.mem_cons.1 he).resolve_left fun h => hxe h.symm) hxs hsizes]
      omega

theorem State.LayoutSound.startMove {s : State} (h : s.LayoutSound) {i : SlotId} {b : Block} {e : Extent}
    (hrun : s.pack.state = .running) (hmove : s.pack.move = none) (hb : s.block i = some b)
    (he : extentBelow b.base s.free = some e) : (s.startMove i b e).LayoutSound := by
  obtain ⟨hfree, hpart, hplaced⟩ := h.ground
  obtain ⟨hmem, hend⟩ := extentBelow_spec he
  have hepos := (hfree.2 e hmem).1
  have hself := State.startMove_block_self hb e
  refine ⟨⟨hfree.1.filter _, fun f hf => hfree.2 f (List.mem_of_mem_filter hf)⟩, fun n hn => ?_, fun j c hc => ?_,
    fun j c hc hd => ?_, fun m hm => ?_, fun _ => by
      rw [show (s.startMove i b e).pack.state = s.pack.state from rfl, hrun]; decide, fun _ => rfl⟩
  · have hupdate := State.takers_update i (fun j hj => s.startMove_block_ne b e hj) n
    have hsplit := takenBy_filter_ne hfree hmem n
    rw [hself, hb, Option.any_some, Option.any_some, Block.covers_toNat, Block.covers_toNat, hpart n hn,
      h.still hmove i b hb] at hupdate
    simp only [Option.getD_none, Option.getD_some, Block.granules] at hupdate
    rw [show (s.startMove i b e).free = s.free.filter (fun h => h != e) from rfl] at hupdate
    have hjoin := within_split (low := e.base) (mid := b.base) (high := b.base + granulesOf b.size) (by omega)
      (by omega) n
    rw [hend] at hsplit
    omega
  · by_cases hj : j = i
    · subst hj
      rw [hself] at hc
      cases hc
      obtain ⟨hsize, hbound, -⟩ := hplaced j b hb
      refine ⟨hsize, hbound, fun d hd => ?_⟩
      cases hd
      dsimp only
      omega
    · rw [s.startMove_block_ne b e hj] at hc
      exact hplaced j c hc
  · by_cases hj : j = i
    · subst hj
      rw [hself] at hc
      cases hc
      rfl
    · rw [s.startMove_block_ne b e hj] at hc
      rw [h.still hmove j c hc] at hd
      cases hd
  · cases hm
    rw [hself]
    simp

theorem State.LayoutSound.visitBlock {s : State} (h : s.LayoutSound) {i : SlotId} {b : Block}
    (hrun : s.pack.state = .running) (hmove : s.pack.move = none) (hb : s.visitChoice = some (i, b)) :
    (s.visitBlock i b).LayoutSound := by
  have hcursor : ∀ p : Pack, p.move = s.pack.move → p.state = s.pack.state →
      ({ s with pack := p } : State).LayoutSound := fun p hm hst =>
    h.withPack hm (by rw [hst, hrun]; decide) fun hstop => by rw [hst, hrun] at hstop; cases hstop
  unfold State.visitBlock
  split
  · exact hcursor _ rfl rfl
  · split_ifs
    · exact hcursor _ rfl rfl
    · exact h.startMove hrun hmove (State.block_of_visitChoice hb).1 ‹_›

/-- The record and the block of a move in flight. -/
theorem State.LayoutSound.moving {s : State} (h : s.LayoutSound) {m : Move} (hm : s.pack.move = some m) :
    ∃ b, s.block m.slot = some b ∧ b.dest = some m.dst ∧ m.src = b.base ∧ m.granules = b.granules ∧ m.dst < b.base := by
  have hagree := h.2.2.2.2.1 m hm
  rw [Option.any_eq_true] at hagree
  obtain ⟨b, hb, hd⟩ := hagree
  have hdest : b.dest = some m.dst := by simpa using hd
  have hrecord := h.2.2.2.1 m.slot b hb (by simp [hdest])
  rw [hm, hdest, Option.some.injEq] at hrecord
  exact ⟨b, hb, hdest, congrArg Move.src hrecord, congrArg Move.granules hrecord,
    (h.2.2.1 m.slot b hb).2.2 m.dst hdest⟩

theorem State.finishMove_block_self {s : State} {m : Move} {b : Block} (hb : s.block m.slot = some b) :
    (s.finishMove m).block m.slot = some { b with base := m.dst, dest := none } :=
  (s.modBlock_block_self m.slot _).trans (by rw [hb]; rfl)

theorem State.finishMove_block_ne (s : State) {m : Move} {j : SlotId} (h : j ≠ m.slot) :
    (s.finishMove m).block j = s.block j :=
  s.modBlock_block_ne _ h

/-- After the completion of a move the ground is sound and nothing moves. -/
theorem State.LayoutSound.finishMove {s : State} (h : s.LayoutSound) {m : Move} (hm : s.pack.move = some m) :
    (s.finishMove m).GroundSound ∧ ∀ i : SlotId, ∀ b ∈ (s.finishMove m).block i, b.dest = none := by
  obtain ⟨hfree, hpart, hplaced⟩ := h.ground
  obtain ⟨b, hb, hdest, hsrc, hgran, hlt⟩ := h.moving hm
  obtain ⟨hsize, hbound, -⟩ := hplaced m.slot b hb
  have hself := State.finishMove_block_self hb
  have hgpos := (hplaced m.slot b hb).granules_pos
  refine ⟨⟨giveBack_sound hfree ?_ ?_ ?_, fun n hn => ?_, fun j c hc => ?_⟩, fun j c hc => ?_⟩
  · dsimp only; omega
  · dsimp only; omega
  · refine h.ground.free_outside hb (by dsimp only; omega) ?_ ?_
    · rw [hdest, Option.getD_some]; dsimp only; omega
    · dsimp only; omega
  · have hupdate := State.takers_update m.slot (fun j hj => s.finishMove_block_ne hj) n
    have hsplit := takenBy_giveBack ⟨m.dst + m.granules, m.src - m.dst⟩ s.free n
    rw [hself, hb, Option.any_some, Option.any_some, Block.covers_toNat, Block.covers_toNat, hpart n hn,
      hdest] at hupdate
    simp only [Option.getD_none, Option.getD_some, Block.granules] at hupdate
    rw [show (s.finishMove m).free = giveBack ⟨m.dst + m.granules, m.src - m.dst⟩ s.free from rfl, hsplit] at hupdate
    dsimp only at hupdate
    rw [show m.dst + m.granules + (m.src - m.dst) = b.base + b.granules by omega, hgran] at hupdate
    have hjoin := within_split (low := m.dst) (mid := m.dst + b.granules) (high := b.base + b.granules) (by omega)
      (by omega) n
    simp only [Block.granules] at hupdate hjoin
    omega
  · by_cases hj : j = m.slot
    · subst hj
      rw [hself] at hc
      cases hc
      refine ⟨hsize, ?_, by simp⟩
      show m.dst + b.granules ≤ 2048
      omega
    · rw [s.finishMove_block_ne hj] at hc
      exact hplaced j c hc
  · by_cases hj : j = m.slot
    · subst hj
      rw [hself] at hc
      cases hc
      rfl
    · rw [s.finishMove_block_ne hj] at hc
      by_contra hd
      have hrecord := h.2.2.2.1 j c hc (Option.isSome_iff_ne_none.2 hd)
      rw [hm, Option.some.injEq] at hrecord
      exact hj (congrArg Move.slot hrecord).symm

theorem State.LayoutSound.moved {s : State} (h : s.LayoutSound) {m : Move} (hm : s.pack.move = some m) :
    (if ((s.finishMove m).evaluate m.slot).pack.state = .stopping then
      ((s.finishMove m).evaluate m.slot).endPack true
    else (s.finishMove m).evaluate m.slot).LayoutSound := by
  obtain ⟨hground, hstill⟩ := h.finishMove hm
  have hsame := (State.engine_evaluate (p := False) (s.finishMove m) m.slot).layout
  have hevaluated : ((s.finishMove m).evaluate m.slot).GroundSound := by
    have hidle : ({ s.finishMove m with pack := Pack.init } : State).LayoutSound :=
      State.GroundSound.layout (hground.of_eq rfl fun _ => rfl) hstill rfl (by simp [Pack.init])
    have hsame' : SameLayout ({ s.finishMove m with pack := Pack.init } : State)
        { (s.finishMove m).evaluate m.slot with pack := Pack.init } := ⟨hsame.1, rfl, hsame.2.2⟩
    exact (hsame'.sound hidle).ground.of_eq rfl fun _ => rfl
  have hnone : ∀ i : SlotId, ∀ b ∈ ((s.finishMove m).evaluate m.slot).block i, b.dest = none := by
    intro i b hb
    obtain ⟨b', hb', -, -, hdest⟩ := hsame.block hb
    exact hdest ▸ hstill i b' hb'
  have hmove : ((s.finishMove m).evaluate m.slot).pack.move = none := by rw [hsame.2.1]; rfl
  split_ifs with hstop
  · exact hevaluated.endPack hnone hmove true
  · exact hevaluated.layout hnone hmove hstop

/-! ## Every step keeps the layout -/

theorem StoreEffect.layoutSound {s t : State} (h : StoreEffect s t) (hs : s.LayoutSound) : t.LayoutSound := by
  cases h with
  | created fill hslot hsize hidle hfit => exact hs.create fill hslot hsize hidle hfit
  | destroyed hb hready hrefs => exact hs.destroy hb hready
  | written | filled => exact hs
  | packStarted x hidle => exact hs.withPack rfl (by simp) (by simp)
  | packStopping hrun hmove => exact hs.withPack rfl (by simp) fun _ => hmove
  | packEnded stopped hrun hmove => exact hs.ground.endPack (hs.still hmove) hmove stopped
  | visited hrun hmove hb => exact hs.visitBlock hrun hmove hb
  | moved hm => exact hs.moved hm

theorem State.tornDown_block (s : State) (x : LinkId) (i : SlotId) :
    (s.tornDown x).block i =
      (s.block i).map fun b =>
        { b.without (s.ownedBy x) with refs := b.refs - countNaming i (s.jobsOf (s.ownedBy x)) } := by
  simp [State.tornDown, State.forgetJobs, State.freeGangs, State.freeLanes, State.block]

theorem State.cleared_block (s : State) (i : SlotId) :
    s.cleared.block i = (s.block i).map fun b => { b with readers := [], writer := none, waiters := [], refs := 0 } := by
  simp [State.cleared, State.block]

theorem State.layoutSound_reset (t : State) (hfree : t.free = [⟨0, 2048⟩]) (hpack : t.pack = .init)
    (hblock : ∀ i, t.block i = none) : t.LayoutSound := by
  refine State.GroundSound.layout ⟨?_, fun n hn => ?_, by simp [hblock]⟩ (by simp [hblock]) (by rw [hpack]; rfl)
    (by rw [hpack]; decide)
  · rw [hfree]
    exact freeListSound_cons ⟨List.Pairwise.nil, by simp⟩ (by decide) le_rfl (by simp)
  · rw [State.takers_eq, hfree]
    simp [hblock, takenBy_cons, within_of (Nat.zero_le n) hn]

theorem keptBehindLinks_layoutSound : KeptBehindLinks State.LayoutSound where
  wires := by
    rintro s t ⟨_, _, _, _, _, _, _, rfl⟩ hs
    exact hs
  store _ h hs := h.layoutSound hs
  gang _ h hs := h.calm.keeps (P := State.LayoutSound) (fun _ _ hw => (Engine.single hw).layout.sound)
    (by rintro _ _ ⟨_, _, _, _, _, rfl⟩ h; exact h) hs
  teardown s x hs := by
    have htorn : SameLayout s (s.tornDown x) := ⟨rfl, rfl, fun i => by
      rw [State.tornDown_block, Option.map_map]
      rfl⟩
    rw [State.teardown_eq]
    exact (htorn.trans (State.engine_evaluates (p := False) _ _).layout).sound hs
  cleared s hs := by
    have hclear : SameLayout s s.cleared := ⟨rfl, rfl, fun i => by
      rw [State.cleared_block, Option.map_map]
      rfl⟩
    exact hclear.sound hs
  restarted s rsel _ _ store _ _ _ _ := State.layoutSound_reset _ rfl rfl fun i => by
    simp [State.block, State.fullRestart]
  startupEnded _ _ hs := hs
  sensed _ _ _ _ hs := hs
  holdRecorded _ _ _ _ hs := hs

/-- Settles O10: the requests of the store area and the pack unit keep the count of takers at one; everything else
leaves the places of the blocks, the free list and the pack unit alone. -/
theorem storeLayoutStaysSound : Obligations.StoreLayoutStaysSound :=
  fun _ _ hs h => keptBehindLinks_layoutSound.step (fun _ _ hs => hs) hs h

end Sys2Proof.Machine
end

section
/-! PROOFS. The bounds of the links (R139, R150, R151, R153): every change of a link keeps them, and a request in hand
finds the reply queue as long as it was when the request was taken. -/

namespace Sys2Proof.Machine

/-! ## One link -/

theorem Link.init_bounded : Link.init.Bounded := by decide

theorem Link.Bounded.withIntake {l : Link} (h : l.Bounded) {intake : List Request} (hlen : intake.length ≤ intakeCap) :
    ({ l with intake := intake } : Link).Bounded :=
  ⟨hlen, h.2⟩

theorem Link.Bounded.withParser {l : Link} (h : l.Bounded) (p : ParserState) (buffer : List Byte) :
    ({ l with parser := p, buffer := buffer } : Link).Bounded := h

theorem Link.Bounded.withReply {l : Link} (h : l.Bounded) (hroom : l.replies.length < replyCap) (r : Reply) :
    ({ l with replies := l.replies ++ [.reply r] } : Link).Bounded := by
  obtain ⟨hintake, hreplies, hnotices, hdropped, hcount, hout⟩ := h
  refine ⟨hintake, ?_, hnotices, hdropped, ?_, hout⟩
  · simp only [List.length_append, List.length_singleton]
    omega
  · simpa [List.count_append, List.count_singleton] using hcount

/-- A SYNC is held with its reservation. -/
theorem Link.Bounded.withSync {l : Link} (h : l.Bounded) (hroom : l.replies.length < replyCap) (hsync : l.sync = none)
    (p : PendingSync) : ({ l with sync := some p, replies := l.replies ++ [.reservation] } : Link).Bounded := by
  obtain ⟨hintake, hreplies, hnotices, hdropped, hcount, hout⟩ := h
  refine ⟨hintake, ?_, hnotices, hdropped, ?_, hout⟩
  · simp only [List.length_append, List.length_singleton]
    omega
  · rw [hsync] at hcount
    simpa [List.count_append] using hcount

theorem Link.Bounded.syncAnswered {l : Link} (h : l.Bounded) (r : Reply) :
    ({ l with sync := none, replies := replaceReservation r l.replies } : Link).Bounded := by
  obtain ⟨hintake, hreplies, hnotices, hdropped, hcount, hout⟩ := h
  exact ⟨hintake, (replaceReservation_length r l.replies).trans_le hreplies, hnotices, hdropped,
    replaceReservation_count r l.replies, hout⟩

theorem Link.Bounded.withNotices {l : Link} (h : l.Bounded) {notices : List Notice} {seq : Byte} {dropped : Nat}
    (hlen : notices.length ≤ noticeCap) (hdropped : dropped ≤ 255) :
    ({ l with notices := notices, seq := seq, dropped := dropped } : Link).Bounded := by
  obtain ⟨hintake, hreplies, -, -, hcount, hout⟩ := h
  exact ⟨hintake, hreplies, hlen, hdropped, hcount, hout⟩

theorem frameBytes_length (kind tag code : Byte) (payload : List Byte) :
    (frameBytes kind tag code payload).length = payload.length + 7 := by
  simp [frameBytes, checkBytes, u8, u16]

theorem Link.Bounded.begun {l : Link} (h : l.Bounded) : l.begun.Bounded := by
  obtain ⟨hintake, hreplies, hnotices, hdropped, hcount, hout⟩ := h
  have hframe : ∀ kind tag code payload, ∀ o ∈ some (⟨frameBytes kind tag code payload, 0⟩ : Outbound),
      o.sent < o.frame.length := by
    intro kind tag code payload o ho
    cases ho
    rw [frameBytes_length]
    exact Nat.succ_pos _
  unfold Link.begun Link.nextFrame
  split
  · rename_i hnext
    split at hnext
    · rename_i r rest hr
      cases hnext
      rw [hr] at hreplies hcount
      exact ⟨hintake, (Nat.le_succ _).trans hreplies, hnotices, hdropped, by simpa using hcount, hframe _ _ _ _⟩
    · split at hnext
      · rename_i n rest hn
        cases hnext
        rw [hn] at hnotices
        exact ⟨hintake, hreplies, (Nat.le_succ _).trans hnotices, hdropped, hcount, hframe _ _ _ _⟩
      · cases hnext
  · exact ⟨hintake, hreplies, hnotices, hdropped, hcount, hout⟩

theorem Link.Bounded.withOutbound {l : Link} (h : l.Bounded) {o : Option Outbound}
    (ho : ∀ p ∈ o, p.sent < p.frame.length) : ({ l with outbound := o } : Link).Bounded := by
  obtain ⟨hintake, hreplies, hnotices, hdropped, hcount, -⟩ := h
  exact ⟨hintake, hreplies, hnotices, hdropped, hcount, ho⟩

theorem Link.Bounded.exchanged {l : Link} (h : l.Bounded) : l.exchanged.Bounded :=
  h.begun.withOutbound l.exchanged_outbound

/-! ## Both links -/

theorem State.linksBounded_iff {s : State} :
    s.LinksBounded ↔ (∀ x, (s.link x).Bounded) ∧ (s.sdo.isSome = true → s.ssel = true) := by
  constructor
  · rintro ⟨ha, hb, hsdo⟩
    exact ⟨fun x => by cases x <;> assumption, hsdo⟩
  · rintro ⟨hlink, hsdo⟩
    exact ⟨hlink .a, hlink .b, hsdo⟩

theorem State.LinksBounded.link {s : State} (h : s.LinksBounded) (x : LinkId) : (s.link x).Bounded :=
  (State.linksBounded_iff.1 h).1 x

theorem State.LinksBounded.setLink {s : State} (h : s.LinksBounded) (x : LinkId) {l : Link} (hl : l.Bounded) :
    (s.setLink x l).LinksBounded := by
  obtain ⟨hlink, hsdo⟩ := State.linksBounded_iff.1 h
  refine State.linksBounded_iff.2 ⟨fun y => ?_, by simpa using hsdo⟩
  by_cases hy : y = x
  · subst hy
    rwa [State.setLink_link_self]
  · rw [State.setLink_link_ne s l hy]
    exact hlink y

theorem State.LinksBounded.notify {s : State} (h : s.LinksBounded) (x : LinkId) (body : NoticeBody) :
    (s.notify x body).LinksBounded := by
  refine h.setLink x ?_
  dsimp only
  split_ifs with hroom
  · exact (h.link x).withNotices (by simp only [List.length_append, List.length_singleton]; omega) (Nat.zero_le _)
  · exact (h.link x).withNotices (h.link x).2.2.1 (Nat.min_le_left _ _)

theorem State.LinksBounded.pushReply {s : State} (h : s.LinksBounded) {x : LinkId}
    (hroom : (s.link x).replies.length < replyCap) (r : Reply) : (s.pushReply x r).LinksBounded :=
  h.setLink x ((h.link x).withReply hroom r)

/-- The bounds stay, and no reply queue grows or shrinks. -/
def LinksKept (s t : State) : Prop :=
  (s.LinksBounded → t.LinksBounded) ∧ ∀ x, (t.link x).replies.length = (s.link x).replies.length

theorem LinksKept.refl (s : State) : LinksKept s s := ⟨id, fun _ => rfl⟩

theorem LinksKept.trans {s t u : State} (h : LinksKept s t) (k : LinksKept t u) : LinksKept s u :=
  ⟨k.1 ∘ h.1, fun x => (k.2 x).trans (h.2 x)⟩

/-- Nothing at the links differs. -/
theorem LinksKept.of_eq {s t : State} (ha : t.linkA = s.linkA) (hb : t.linkB = s.linkB) (hssel : t.ssel = s.ssel)
    (hsdo : t.sdo = s.sdo) : LinksKept s t := by
  refine ⟨fun h => ?_, fun x => ?_⟩
  · unfold State.LinksBounded
    rw [ha, hb, hssel, hsdo]
    exact h
  · cases x
    · rw [State.link_a, State.link_a, ha]
    · rw [State.link_b, State.link_b, hb]

theorem LinksKept.setLink {s : State} {x : LinkId} {l : Link} (hl : (s.link x).Bounded → l.Bounded)
    (hlen : l.replies.length = (s.link x).replies.length) : LinksKept s (s.setLink x l) := by
  refine ⟨fun h => h.setLink x (hl (h.link x)), fun y => ?_⟩
  by_cases hy : y = x
  · subst hy
    rwa [State.setLink_link_self]
  · rw [State.setLink_link_ne s l hy]

theorem State.notify_replies (s : State) (x y : LinkId) (body : NoticeBody) :
    ((s.notify x body).link y).replies = (s.link y).replies := by
  by_cases hy : y = x
  · subst hy
    simp only [State.notify, State.modLink, State.setLink_link_self]
    split_ifs <;> rfl
  · rw [State.notify_link_ne s body hy]

theorem State.linksKept_notify (s : State) (x : LinkId) (body : NoticeBody) : LinksKept s (s.notify x body) :=
  ⟨fun h => h.notify x body, fun y => by rw [State.notify_replies]⟩

theorem EngineWrite.linksKept {p : Prop} {s t : State} (h : EngineWrite p s t) : LinksKept s t := by
  cases h with
  | gang | lanes | block | bytes => exact .of_eq rfl rfl rfl rfl
  | notified x body => exact s.linksKept_notify x body
  | marked x f =>
    refine .setLink (fun h => h.withNotices ?_ h.2.2.2.1) rfl
    rw [List.length_map]
    exact h.2.2.1
  | syncAnswered x payload =>
    cases hsync : (s.link x).sync with
    | none =>
      rw [State.resolveSync_none hsync]
      exact .refl s
    | some q =>
      rw [State.resolveSync_eq hsync]
      exact .setLink (fun h => h.syncAnswered _) (replaceReservation_length _ _)

theorem Engine.linksKept {p : Prop} {s t : State} (h : Engine p s t) : LinksKept s t :=
  h.keeps (P := LinksKept s) (fun _ _ hw hu => hu.trans hw.linksKept) (.refl s)

theorem GangEffect.linksKept {s t : State} (h : GangEffect s t) : LinksKept s t :=
  h.calm.keeps (P := LinksKept s) (fun _ _ hw hu => hu.trans hw.linksKept)
    (by rintro _ _ ⟨_, _, _, _, _, rfl⟩ hu; exact hu.trans (.of_eq rfl rfl rfl rfl)) (.refl s)

theorem State.linksKept_endPack (s : State) (stopped : Bool) : LinksKept s (s.endPack stopped) := by
  unfold State.endPack
  cases s.pack.link with
  | none => exact .of_eq rfl rfl rfl rfl
  | some x => exact (s.linksKept_notify x _).trans (.of_eq rfl rfl rfl rfl)

theorem StoreEffect.linksKept {s t : State} (h : StoreEffect s t) : LinksKept s t := by
  cases h with
  | created | destroyed | written | filled | packStarted | packStopping => exact .of_eq rfl rfl rfl rfl
  | packEnded stopped => exact s.linksKept_endPack stopped
  | visited =>
    unfold State.visitBlock
    split
    · exact .of_eq rfl rfl rfl rfl
    · split_ifs <;> exact .of_eq rfl rfl rfl rfl
  | @moved m hm =>
    have hmoved : LinksKept s ((s.finishMove m).evaluate m.slot) :=
      (LinksKept.of_eq (t := s.finishMove m) rfl rfl rfl rfl).trans
        (State.engine_evaluate (p := False) _ m.slot).linksKept
    split_ifs
    · exact hmoved.trans (State.linksKept_endPack _ true)
    · exact hmoved

theorem Effect.linksKept {s t : State} (h : Effect s t) : LinksKept s t := by
  cases h with
  | same => exact .refl s
  | store h => exact h.linksKept
  | gang h => exact h.linksKept

theorem State.linksKept_popped {s : State} {x : LinkId} {r : Request} {rest : List Request} (h : s.Takes x r rest) :
    LinksKept s (s.popped x rest) := by
  refine .setLink (fun hl => hl.withIntake ?_) rfl
  have hlen := hl.1
  rw [h.2.1, List.length_cons] at hlen
  omega

theorem State.linksKept_teardown (s : State) (x : LinkId) : LinksKept s (s.teardown x) := by
  rw [State.teardown_eq]
  exact (LinksKept.of_eq (t := s.tornDown x) rfl rfl rfl rfl).trans (State.engine_evaluates (p := False) _ _).linksKept

theorem State.linksKept_engineRestart (s : State) : LinksKept s s.engineRestart := by
  have hmark : ∀ (u : State) (x : LinkId), LinksKept u (u.orphanEdges x fun _ => true) := fun u x =>
    (EngineWrite.marked (samples := True) u x _).linksKept
  have hgone : ∀ (u : State) (x : LinkId), LinksKept u (u.syncGone x fun _ => true) := fun u x =>
    (u.engine_resolveSyncOf (p := False) x _ _).linksKept
  rw [State.engineRestart_eq]
  exact ((((LinksKept.of_eq (t := s.cleared) rfl rfl rfl rfl).trans (hmark _ .a)).trans (hmark _ .b)).trans
    (hgone _ .a)).trans (hgone _ .b)

/-- After a link reset the link is as after a start-up (R155). -/
theorem State.linkReset_link (s : State) (x : LinkId) : (s.linkReset x).link x = .init := by
  cases x <;> rfl

theorem State.LinksBounded.linkReset {s : State} (h : s.LinksBounded) (x : LinkId) : (s.linkReset x).LinksBounded := by
  have hgone : ((s.teardown x).syncGone x.other (s.ownedBy x)).LinksBounded :=
    (State.engine_resolveSyncOf (p := False) _ x.other _ _).linksKept.1 ((s.linksKept_teardown x).1 h)
  have hinit := hgone.setLink x Link.init_bounded
  cases x
  · exact hinit
  · exact hinit

/-! ## The link's own events -/

theorem State.LinksBounded.setParser {s : State} (h : s.LinksBounded) (x : LinkId) (p : ParserState)
    (buffer : List Byte) : (s.setParser x p buffer).LinksBounded := by
  have hset := h.setLink x ((h.link x).withParser p buffer)
  cases x
  · exact hset
  · exact hset

theorem State.LinksBounded.exchange {s : State} (h : s.LinksBounded) (x : LinkId) : (s.exchange x).LinksBounded := by
  obtain ⟨ha, hb, hsdo⟩ := h
  cases x
  · unfold State.exchange
    dsimp only
    split
    · exact ⟨Link.Bounded.exchanged ha, hb, fun _ => rfl⟩
    all_goals exact ⟨ha, hb, fun _ => rfl⟩
  · exact ⟨ha, hb, hsdo⟩

theorem State.LinksBounded.storeByte {s : State} (h : s.LinksBounded) (x : LinkId) (b : Byte) :
    (s.storeByte x b).LinksBounded := by
  unfold State.storeByte
  dsimp only
  split_ifs
  · exact h.setParser x _ _
  · exact h
  · exact h.setParser x _ _

theorem State.LinksBounded.refuseAtOnce {s : State} (h : s.LinksBounded) (x : LinkId) (r : Request) (st : Status) :
    (s.refuseAtOnce x r st).LinksBounded := by
  unfold State.refuseAtOnce
  split_ifs with hroom
  · exact h.pushReply hroom _
  · exact h.notify x _

theorem State.LinksBounded.frameComplete {s : State} (h : s.LinksBounded) (x : LinkId) (frame : List Byte) :
    (s.frameComplete x frame).LinksBounded := by
  unfold State.frameComplete State.offer
  split_ifs with _ _ _ hfull
  · exact h.notify x _
  · exact h.notify x _
  · exact h.refuseAtOnce x _ _
  · exact h.refuseAtOnce x _ _
  · refine h.setLink x ((h.link x).withIntake ?_)
    simp only [List.length_append, List.length_singleton]
    omega

theorem State.LinksBounded.truncate {s : State} (h : s.LinksBounded) (x : LinkId) : (s.truncate x).LinksBounded := by
  unfold State.truncate
  split_ifs
  · exact h
  · exact (h.setParser x _ _).notify x _

/-! ## Every step -/

theorem StepCase.linksBounded {s t : State} (h : StepCase s t) (hs : s.LinksBounded) : t.LinksBounded := by
  cases h with
  | idle => exact hs
  | @refused x r rest htake payload =>
    have hanswered : s.answered x r rest payload = (s.popped x rest).pushReply x ⟨r.tag, r.code, payload⟩ := by
      cases x <;> rfl
    rw [hanswered]
    exact ((State.linksKept_popped htake).1 hs).pushReply
      (by rw [(State.linksKept_popped htake).2]; exact htake.2.2.2) _
  | @carried x r rest u htake payload heffect =>
    have hkept := (State.linksKept_popped htake).trans heffect.linksKept
    exact (hkept.1 hs).pushReply (by rw [hkept.2]; exact htake.2.2.2) _
  | @syncHeld x r rest htake g timeout =>
    have hpopped := (State.linksKept_popped htake).1 hs
    refine hpopped.setLink x ((hpopped.link x).withSync ?_ ?_ _)
    · rw [(State.linksKept_popped htake).2]
      exact htake.2.2.2
    · rw [State.popped, State.setLink_link_self]
      exact htake.2.2.1
  | @engineRestarted x r rest htake =>
    have hkept := (State.linksKept_popped htake).trans (State.linksKept_engineRestart _)
    exact (((hkept.1 hs).pushReply (by rw [hkept.2]; exact htake.2.2.2) _).notify .a _).notify .b _
  | @detached x r rest htake reply body =>
    have hreset := ((State.linksKept_popped htake).1 hs).linkReset x
    exact (hreset.pushReply (by rw [State.linkReset_link]; decide) reply).notify x body
  | broken body hready =>
    have hreset : ({ s.linkReset .b with silent := true } : State).LinksBounded := hs.linkReset .b
    exact hreset.notify .b body
  | effect hready heffect => exact heffect.linksKept.1 hs
  | syncAnswered x payload => exact (s.engine_resolveSyncOf (p := False) x _ payload).linksKept.1 hs
  | byteStored x b => exact (hs.exchange x).storeByte x b
  | exchanged x => exact hs.exchange x
  | oversized x => exact ((hs.exchange x).setParser x _ _).notify x _
  | completed x frame => exact ((hs.exchange x).setParser x _ _).frameComplete x frame
  | gapEnded => exact State.LinksBounded.truncate (s := { s with gap := .stopped }) hs .b
  | deselected frame =>
    have hpins : ({ s with ssel := false, sdo := none } : State).LinksBounded := ⟨hs.1, hs.2.1, by simp⟩
    split_ifs
    · exact hpins.truncate .a
    · exact hpins
  | begun x => exact hs.setLink x (hs.link x).begun
  | sent x => exact hs.setLink x ((hs.link x).withOutbound (by simp))
  | lineHigh | resetnMoved | holdRecorded | flgRecorded => exact hs
  | restarted rsel hmode hstore hsdo =>
    refine ⟨Link.init_bounded, Link.init_bounded, ?_⟩
    rcases hsdo with rfl | rfl
    · exact hs.2.2
    · simp
  | startupEnded body hmode =>
    have hstarted : ({ s with mode := .ready, started := true, store := [] } : State).LinksBounded := hs
    exact (hstarted.notify .a body).notify .b body

/-- Settles O6: what lies behind the links leaves their bounds and the length of the reply queues, and each event of a
link keeps them. -/
theorem linksStayBounded : Obligations.LinksStayBounded := by
  intro s t hs h
  unfold step at h
  split at h
  · cases h
    exact hs
  · exact (exec_cases h).linksBounded hs

end Sys2Proof.Machine
end

section
/-! PROOFS. What follows from the definitions of the links' rows (R139-R153), of power and reset (R170, R171) and of the
requests that every link takes alike (R149, R161): the state after reset and the start-ups. -/

namespace Sys2Proof.Machine

/-! ## Reset and start-ups -/

theorem State.reset_gang (g : GangId) : State.reset.gang g = none := by
  simp [State.gang, State.reset]

theorem State.reset_dir (i : SlotId) : State.reset.dir[i] = ⟨0#8, none⟩ := by
  simp [State.reset]

theorem State.reset_block (i : SlotId) : State.reset.block i = none := by
  rw [State.block, State.reset_dir]

theorem State.reset_lane (i : LaneId) : State.reset.lanes[i] = .init := by
  simp [State.reset]

/-- Settles O3, by the definition of the state after reset. -/
theorem resetHoldsTheStartUpValues : Obligations.ResetHoldsTheStartUpValues :=
  ⟨rfl, rfl, State.reset_dir, rfl, rfl, State.reset_lane, State.reset_gang, rfl, fun x => by cases x <;> rfl, rfl, rfl⟩

theorem State.formed_of_no_gang {s : State} (h : ∀ g, s.gang g = none) : s.formed = [] := by
  simp [State.formed, h]

theorem State.liveJobs_of_no_gang {s : State} (h : ∀ g, s.gang g = none) : s.liveJobs = [] := by
  simp [State.liveJobs, State.formed_of_no_gang h]

theorem State.blocks_of_no_block {s : State} (h : ∀ i, s.block i = none) : s.blocks = [] := by
  simp [State.blocks, h]

/-- Settles O4: after reset there is no gang, no job, no block and no message, and one extent takes every granule. -/
theorem invariantsHoldAtReset : Obligations.InvariantsHoldAtReset := by
  have hjobs : State.reset.liveJobs = [] := State.liveJobs_of_no_gang State.reset_gang
  refine ⟨State.reset_store_wf, by decide, fun i g => ?_, fun i _ => ?_, fun g G hG => ?_, ⟨by decide, by decide, ?_⟩,
    fun i => ⟨fun _ => ?_, fun b hb => ?_⟩, fun i b hb => ?_, ⟨by decide, fun n hn => ?_, fun i b hb => ?_,
      fun i b hb => ?_, ?_, ?_, ?_⟩, ⟨fun _ => State.reset_gang, fun g G hG => ?_, fun i hon => ?_⟩, fun g G hG => ?_,
    fun i b hb => ?_⟩
  · rw [State.reset_lane, State.reset_gang]
    simp [Lane.init]
  · rw [State.reset_lane]
    rfl
  · simp [State.reset_gang] at hG
  · simp [State.IdsDistinct, State.liveIds, hjobs]
  · simp [hjobs, countNaming]
  · simp [State.reset_block] at hb
  · simp [State.reset_block] at hb
  · have hfree : State.reset.free = [⟨0, 2048⟩] := rfl
    simp [State.takers, State.blocks_of_no_block State.reset_block, hfree, Extent.covers, hn]
  · simp [State.reset_block] at hb
  · simp [State.reset_block] at hb
  · simp [State.reset, Pack.init]
  · simp [State.reset, Pack.init]
  · simp [State.reset, Pack.init]
  · simp [State.reset_gang] at hG
  · exact absurd (hon.symm.trans (congrArg Lane.enabled (State.reset_lane i))) (by decide)
  · simp [State.reset_gang] at hG
  · simp [State.reset_block] at hb

/-- Settles O52: each row as it is written, and the rate level by level. -/
theorem startUpsBeginAndEnd : Obligations.StartUpsBeginAndEnd := by
  refine ⟨fun s rsel => ?_, fun s rsel => ?_, fun s => rfl, fun s rsel => ?_, fun s rsel => ?_, fun s cause hmode => ?_,
    fun s hmode => ?_⟩
  · match rsel with
    | 0 | 1 | 2 | 3 => rfl
  · refine congrArg _ (if_congr Iff.rfl ?_ rfl)
    cases s.resetnHigh <;> rfl
  · refine congrArg _ (if_congr ?_ rfl rfl)
    simp
  · rfl
  · show Host.Outcome.next (match s.mode with | .starting cause => _ | .off => s | .held => s | .ready => s) = _
    rw [hmode]
  · show Host.Outcome.next (match s.mode with | .starting cause => _ | .off => s | .held => s | .ready => s) = _
    cases h : s.mode with
    | starting cause => exact absurd h (hmode cause)
    | off | held | ready => rfl

/-! ## Requests that are refused before their rule (R161) -/

theorem exec_unknownRequest (x : LinkId) (s : State) : exec (.unknownRequest x) s = execUnknownRequest x s := by rfl

theorem exec_restartEngine (x : LinkId) (s : State) : exec (.restartEngine x) s = execRestartEngine x s := by rfl

theorem exec_restartAll (x : LinkId) (rsel : Fin 4) (s : State) :
    exec (.restartAll x rsel) s = execRestartAll x rsel s := by rfl

theorem exec_detach (x : LinkId) (s : State) : exec (.detach x) s = execDetach x s := by rfl

theorem exec_sync (x : LinkId) (s : State) : exec (.sync x) s = execSync x s := by rfl

/-- A RESTART whose payload is neither scope is refused under either of its two rows (R161, R167). -/
theorem exec_restart_refused {s : State} {x : LinkId} {r : Request} {rest : List Request} (htake : s.Takes x r rest)
    (hcode : r.code = 0x03#8) (hengine : r.payload ≠ [0#8]) (hall : r.payload ≠ [1#8]) (rsel : Fin 4) :
    exec (.restartEngine x) s = .next (s.answered x r rest (if r.payload.length = 1 then [3#8] else [2#8])) ∧
      exec (.restartAll x rsel) s = .next (s.answered x r rest (if r.payload.length = 1 then [3#8] else [2#8])) := by
  have hanswer : answer x r (s.popped x rest) (restartRefusal r.payload) =
      s.answered x r rest (if r.payload.length = 1 then [3#8] else [2#8]) := by
    rw [restartRefusal, answer_refuse]
    split_ifs <;> rfl
  constructor
  · rw [exec_restartEngine, execRestartEngine, State.take_eq htake (by simp [hcode, Code.restart, hall]),
      if_neg hengine, hanswer]
  · rw [exec_restartAll, execRestartAll, State.take_eq htake (by simp [hcode, Code.restart, hengine]), if_neg hall,
      hanswer]

/-- Settles O17: what RESTART ALL sets, field by field, and the refusals of both rows. -/
theorem restartAllBeginsAStartUp : Obligations.RestartAllBeginsAStartUp := by
  refine ⟨fun s x rsel r rest htake hcode hpay => ?_, fun s x rsel r rest htake hcode hengine hall =>
    exec_restart_refused htake hcode hengine hall rsel⟩
  rw [exec_restartAll, execRestartAll, State.take_eq htake (by simp [hcode, Code.restart, hpay]), if_pos hpay,
    State.beginStartup]
  cases x <;> rfl

/-- A code outside the table of R159 is not known. -/
theorem not_known_of_not_listed {c : Byte}
    (h : c.toNat ∉ [0x01, 0x02, 0x03, 0x04, 0x05, 0x10, 0x11, 0x12, 0x13, 0x14, 0x15, 0x16, 0x17, 0x18, 0x19, 0x1A,
      0x20, 0x21, 0x22, 0x23, 0x24, 0x25, 0x26, 0x27, 0x30, 0x31, 0x32, 0x33, 0x34, 0x35]) : Code.known c = false := by
  simp only [List.mem_cons, List.not_mem_nil, or_false, not_or] at h
  simp only [Code.known, decide_eq_false_iff_not]
  omega

/-- A request row other than RESTART, DETACH and SYNC checks the length of R161 first, then follows its rule. -/
theorem exec_served {c : Instr} {x : LinkId} {code : Byte} {permitted : List Byte → Bool}
    (hlink : c.requestLink = some x) (hrow : requestRow c = some (code, permitted))
    (hcode : code ∉ [0x03#8, 0x04#8, 0x05#8]) :
    ∃ (lengthOk : List Byte → Bool) (rule : List Byte → State → Answer),
      (∀ s, exec c s = .next (s.serve x code lengthOk rule)) ∧ ∀ p, permitted p = false → lengthOk p = false := by
  cases c with
  | define y =>
    cases hlink
    cases hrow
    refine ⟨_, _, fun s => rfl, fun p hp => ?_⟩
    simp only [decide_eq_false_iff_not, defineLengthOk, nameLengthOk, Bool.and_eq_false_iff, Bool.or_eq_false_iff,
      beq_eq_false_iff_ne] at hp ⊢
    omega
  | lookup y =>
    cases hlink
    cases hrow
    refine ⟨_, _, fun s => rfl, fun p hp => ?_⟩
    simp only [decide_eq_false_iff_not, lookupLengthOk, nameLengthOk, Bool.and_eq_false_iff,
      beq_eq_false_iff_ne] at hp ⊢
    omega
  | hello y | summary y | pack y | stopPack y =>
    cases hlink
    cases hrow
    exact ⟨_, _, fun s => rfl, fun p hp => by simpa [noFields] using hp⟩
  | restartEngine y | restartAll y rsel | detach y | sync y =>
    cases hrow
    exact absurd hcode (by decide)
  | delete y | describe y | catalog y | storeMap y | write y | read y | fill y | form y | dissolve y | configure y
  | timing y | gangStatus y | setLines y | getLines y board | setControl y | submit y | cancel y | halt y | pause y
  | resume y | jobStatus y =>
    cases hlink
    cases hrow
    exact ⟨_, _, fun s => rfl, fun p hp => hp⟩
  | _ => cases hrow

/-- Settles O13: an unknown code has a row of its own, and a wrong length is refused before any rule is read. -/
theorem unknownCodesAndWrongLengthsAreRefused : Obligations.UnknownCodesAndWrongLengthsAreRefused := by
  refine ⟨fun s x r rest htake hcode => ?_,
    fun c x code permitted s r rest hlink hrow htake hcode hlength => ?_⟩
  · rw [exec_unknownRequest, execUnknownRequest, State.take_eq htake (by simp [not_known_of_not_listed hcode]),
      answer_refuse]
    rfl
  · have hrestart (hone : r.payload.length ≠ 1) (rsel : Fin 4) (hcode : r.code = 0x03#8) :=
      exec_restart_refused htake hcode (fun h => hone (by rw [h]; rfl)) (fun h => hone (by rw [h]; rfl)) rsel
    cases c with
    | restartEngine y =>
      cases hlink
      cases hrow
      have hone : r.payload.length ≠ 1 := by simpa using hlength
      exact (hrestart hone 0 hcode).1.trans (by rw [if_neg hone])
    | restartAll y rsel =>
      cases hlink
      cases hrow
      have hone : r.payload.length ≠ 1 := by simpa using hlength
      exact (hrestart hone rsel hcode).2.trans (by rw [if_neg hone])
    | detach y =>
      cases hlink
      cases hrow
      have hfields : noFields r.payload = false := by simpa [noFields] using hlength
      rw [exec_detach, execDetach, State.take_eq htake (by simp [hcode, Code.detach]), hfields, answer_refuse]
      rfl
    | sync y =>
      cases hlink
      cases hrow
      have hthree : r.payload.length ≠ 3 := by simpa using hlength
      rw [exec_sync, execSync, State.take_eq htake (by simp [hcode, Code.sync]), if_neg hthree, answer_refuse]
      rfl
    | _ =>
      obtain ⟨lengthOk, rule, hexec, hok⟩ := exec_served hlink hrow (by cases hrow <;> decide)
      rw [hexec, State.serve_badLength htake hcode (hok _ hlength)]
      rfl

end Sys2Proof.Machine
end

section
/-! PROOFS. The links: the parser (R144), complete frames (R145, R148), frames ended early (R146), the transmitter (R151),
notices (R174, R176, R178) and SYNC (R152, R153). -/

namespace Sys2Proof.Machine

/-! ## The parser -/

theorem exec_byteReceived (x : LinkId) (b : Byte) (s : State) :
    exec (.byteReceived x b) s = execByteReceived x b s := by rfl

theorem exec_lengthOversize (x : LinkId) (b : Byte) (s : State) :
    exec (.lengthOversize x b) s = execLengthOversize x b s := by rfl

theorem exec_frameReceived (x : LinkId) (b : Byte) (s : State) :
    exec (.frameReceived x b) s = execFrameReceived x b s := by rfl

/-- An exchange keeps what the link has received and its position in the frame it receives. -/
theorem State.exchange_link (s : State) (x : LinkId) :
    ((s.exchange x).link x).parser = (s.link x).parser ∧ ((s.exchange x).link x).buffer = (s.link x).buffer ∧
      ((s.exchange x).link x).intake = (s.link x).intake ∧ ((s.exchange x).link x).sync = (s.link x).sync := by
  cases x with
  | b => exact ⟨rfl, rfl, rfl, rfl⟩
  | a =>
    have hkept := s.linkA.exchanged_keeps
    unfold State.exchange
    dsimp only
    split
    · exact ⟨hkept.1, hkept.2.1, hkept.2.2.1, hkept.2.2.2.1⟩
    all_goals exact ⟨rfl, rfl, rfl, rfl⟩

/-- A byte of role plain is exchanged, and stored where bytes reach the parser (R144). -/
theorem exec_byteReceived_plain {s : State} {x : LinkId} {b : Byte} (hrole : byteRole (s.link x) b = .plain) :
    exec (.byteReceived x b) s = .next (if s.receiving x then (s.exchange x).storeByte x b else s.exchange x) := by
  rw [exec_byteReceived, execByteReceived, if_pos hrole]

theorem State.storeByte_hunting {s : State} {x : LinkId} (h : (s.link x).parser = .hunting) (b : Byte) :
    s.storeByte x b = if b = syncByte then s.setParser x .header [b] else s :=
  if_pos h

theorem State.storeByte_framing {s : State} {x : LinkId} (h : (s.link x).parser ≠ .hunting) (b : Byte) :
    s.storeByte x b =
      s.setParser x (parserAfter (s.link x).parser ((s.link x).buffer ++ [b])) ((s.link x).buffer ++ [b]) :=
  if_neg h

theorem byteRole_hunting {l : Link} (h : l.parser = .hunting) (b : Byte) : byteRole l b = .plain := by
  simp [byteRole, h]

theorem byteRole_header {l : Link} (h : l.parser = .header) (b : Byte) :
    byteRole l b = if l.buffer.length = 4 ∧ payloadCap < b.toNat then .oversize else .plain := by
  simp [byteRole, h]

theorem byteRole_payload {l : Link} (h : l.parser = .payload) (b : Byte) : byteRole l b = .plain := by
  simp [byteRole, h]

theorem byteRole_crc {l : Link} (h : l.parser = .crc) (b : Byte) :
    byteRole l b = if l.buffer.length = 6 + byteAt l.buffer 4 then .completes else .plain := by
  simp [byteRole, h]

theorem getD_append_self (l : List Byte) (b d : Byte) : (l ++ [b]).getD l.length d = b := by
  simp

theorem byteAt_append {l : List Byte} {i : Nat} (h : i < l.length) (k : List Byte) : byteAt (l ++ k) i = byteAt l i := by
  unfold byteAt
  rw [List.getD_append _ _ _ _ h]

/-- A byte stored in a frame in progress: the parser goes on from where the link stands. -/
theorem exec_byteReceived_framing {s : State} {x : LinkId} {b : Byte} (hrec : s.receiving x = true)
    (hrole : byteRole (s.link x) b = .plain) (hframing : (s.link x).parser ≠ .hunting) :
    exec (.byteReceived x b) s = .next
      ((s.exchange x).setParser x (parserAfter (s.link x).parser ((s.link x).buffer ++ [b]))
        ((s.link x).buffer ++ [b])) := by
  obtain ⟨hparser, hbuffer, -, -⟩ := s.exchange_link x
  rw [exec_byteReceived_plain hrole, if_pos hrec, State.storeByte_framing (by rwa [hparser]), hparser, hbuffer]

/-- Settles O47, along the table of R144. -/
theorem parserActsOnEachByte : Obligations.ParserActsOnEachByte := by
  refine ⟨fun s x b hrec => ⟨fun hp hb => ?_, fun hp hb => ?_, fun hp hlen => ?_, fun hp hlen hb => ?_,
    fun hp hlen hb => ?_, fun hp hlen => ?_, fun hp hlen => ?_⟩, fun s x b hrec hp => ?_,
    fun s p buffer => ⟨rfl, rfl, rfl, ?_⟩⟩
  · rw [exec_byteReceived_plain (byteRole_hunting hp b), if_pos hrec,
      State.storeByte_hunting (by rw [(s.exchange_link x).1, hp])]
    exact congrArg _ (if_pos hb)
  · rw [exec_byteReceived_plain (byteRole_hunting hp b), if_pos hrec,
      State.storeByte_hunting (by rw [(s.exchange_link x).1, hp])]
    exact congrArg _ (if_neg hb)
  · rw [exec_byteReceived_framing hrec (by rw [byteRole_header hp, if_neg (by omega)]) (by simp [hp]), hp]
    have hshort : ((s.link x).buffer ++ [b]).length ≠ 5 := by simp only [List.length_append, List.length_singleton]; omega
    rw [parserAfter, if_neg hshort]
  · rw [exec_byteReceived_framing hrec (by rw [byteRole_header hp, if_neg (by unfold payloadCap; omega)])
      (by simp [hp]), hp]
    have hfull : ((s.link x).buffer ++ [b]).length = 5 := by simp only [List.length_append, List.length_singleton]; omega
    have hlast : byteAt ((s.link x).buffer ++ [b]) 4 = b.toNat := by
      unfold byteAt
      rw [← hlen, getD_append_self]
    rw [parserAfter, if_pos hfull, hlast]
    refine congrArg _ (congrArg (fun p => State.setParser _ x p _) (if_congr ?_ rfl rfl))
    rw [BitVec.toNat_eq]
    rfl
  · have hrole : byteRole (s.link x) b = .oversize := by rw [byteRole_header hp, if_pos ⟨hlen, hb⟩]
    rw [exec_lengthOversize, execLengthOversize, if_pos (by simp [hrec, hrole])]
    rfl
  · rw [exec_byteReceived_framing hrec (byteRole_payload hp b) (by simp [hp]), hp, parserAfter,
      byteAt_append (by omega), List.length_append]
    rfl
  · have hgoes : (s.link x).buffer.length ≠ 6 + byteAt (s.link x).buffer 4 := by unfold byteAt; omega
    rw [exec_byteReceived_framing hrec (by rw [byteRole_crc hp, if_neg hgoes]) (by simp [hp]), hp]
    rfl
  · rw [exec_byteReceived_plain (byteRole_hunting hp b), hrec]
    rfl
  · unfold State.exchange
    dsimp only
    cases hmode : s.mode with
    | off | held | starting _ => rfl
    | ready =>
      dsimp only
      cases hout : s.linkA.begun.outbound with
      | none =>
        simp only [State.modLink, State.setLink, State.link_a, Link.exchanged, Link.readyByte, hout, Option.bind_none]
        rw [← hout]
        rfl
      | some o => simp [State.modLink, State.setLink, Link.exchanged, Link.readyByte, hout, fillByte, Outbound.sendOne]

/-! ## Complete frames -/

theorem Link.tagInUse_iff (l : Link) (tag : Byte) :
    l.tagInUse tag = true ↔ (∃ q ∈ l.intake, q.tag = tag) ∨ ∃ p ∈ l.sync.toList, p.tag = tag := by
  simp [Link.tagInUse, Option.any_eq_true]

theorem State.setParser_link (s : State) (x : LinkId) (p : ParserState) (buffer : List Byte) :
    (s.setParser x p buffer).link x = { s.link x with parser := p, buffer := buffer } := by
  cases x <;> rfl

set_option maxRecDepth 4000 in
theorem crc16_of_123456789 :
    crc16 [0x31#8, 0x32#8, 0x33#8, 0x34#8, 0x35#8, 0x36#8, 0x37#8, 0x38#8, 0x39#8] = 0x29B1#16 := by decide

/-- Settles O48, along the checks of R145 and R148. -/
theorem framesAreCheckedAndOffered : Obligations.FramesAreCheckedAndOffered := by
  refine ⟨fun s x b => ?_, crc16_of_123456789⟩
  intro l frame length hrec hp hlen ended tag code atOnce
  have hrole : byteRole (s.link x) b = .completes := by rw [byteRole_crc hp]; exact if_pos hlen
  have hcount : byteAt frame 4 = length := byteAt_append (by omega) _
  obtain ⟨-, -, hintake, hsync⟩ := s.exchange_link x
  have hended : ended.link x = { (s.exchange x).link x with parser := .hunting, buffer := [] } :=
    State.setParser_link ..
  have hintake' : (ended.link x).intake = l.intake := by rw [hended]; exact hintake
  have hsync' : (ended.link x).sync = l.sync := by rw [hended]; exact hsync
  have hrequest : frameRequest frame = ⟨tag, code, (frame.drop 5).take length⟩ := by rw [frameRequest, hcount]
  rw [exec_frameReceived, execFrameReceived, if_pos (by simp [hrec, hrole])]
  refine congrArg _ ?_
  show ended.frameComplete x frame = _
  rw [State.frameComplete, checkOk, hcount]
  refine if_congr (by simp [checkBytes]) rfl (if_congr Iff.rfl rfl ?_)
  rw [hrequest, State.offer, hintake']
  refine if_congr ?_ rfl (if_congr Iff.rfl rfl ?_)
  · rw [Link.tagInUse_iff, hintake', hsync']
  · rw [State.modLink, hintake']

/-! ## Frames ended early -/

theorem State.ready_iff (s : State) : s.ready = true ↔ s.mode = .ready := by simp [State.ready]

/-- Settles O49: both rows end the frame in progress alike, and the gap timer is stopped either way. -/
theorem framesEndedEarlyAreTruncated : Obligations.FramesEndedEarlyAreTruncated := by
  refine ⟨fun s hmode hgap => ?_, fun s hidle => ?_, fun s => ?_⟩
  · refine congrArg Host.Outcome.next ((if_pos (by simp [State.ready_of hmode, hgap])).trans ?_)
    exact if_congr Iff.rfl rfl rfl
  · refine congrArg Host.Outcome.next (if_neg ?_)
    rcases hidle with hmode | hgap
    · simp [mt s.ready_iff.1 hmode]
    · simp [hgap, Timer.isRunning]
  · refine congrArg Host.Outcome.next ?_
    by_cases hmode : s.mode = .ready
    · refine (if_pos (State.ready_of hmode)).trans ?_
      by_cases hp : s.linkA.parser = .hunting
      · rw [if_neg (by simp [hp])]
        exact if_pos hp
      · rw [if_pos ⟨hmode, hp⟩]
        exact if_neg hp
    · exact (if_neg (mt s.ready_iff.1 hmode)).trans (if_neg fun h => hmode h.1).symm

/-! ## The transmitter -/

theorem exec_transmitBegin (x : LinkId) (s : State) : exec (.transmitBegin x) s = execTransmitBegin x s := by rfl

/-- What the transmitter begins with no outbound frame, by what waits (R151). -/
theorem Link.begun_idle {l : Link} (h : l.outbound = none) :
    l.begun =
      match l.replies, l.notices with
      | .reply q :: rest, _ => { l with replies := rest, outbound := some ⟨q.frame, 0⟩ }
      | _, n :: rest => { l with notices := rest, outbound := some ⟨n.frame, 0⟩ }
      | _, [] => l := by
  rcases hreplies : l.replies with _ | ⟨_ | _, _⟩ <;> rcases hnotices : l.notices with _ | ⟨_, _⟩ <;>
    simp [Link.begun, Link.nextFrame, h, hreplies, hnotices]

theorem ReplyEntry.isReply_iff (e : ReplyEntry) : e.isReply = true ↔ ∃ q, e = .reply q := by
  cases e <;> simp [ReplyEntry.isReply]

/-- Settles O50, by what waits and by what stands outbound. -/
theorem transmitterSendsRepliesFirst : Obligations.TransmitterSendsRepliesFirst := by
  refine ⟨fun l hout => ?_, fun l hout => Link.begun_of_outbound hout, fun s x hmode => ?_, fun s x hidle => ?_,
    fun s x hmode => ?_, fun s => ?_⟩
  · rw [Link.begun_idle hout]
    rcases l.replies with _ | ⟨_ | _, _⟩ <;> rcases l.notices with _ | ⟨n, _⟩
    case nil.cons | cons.reservation.cons =>
      obtain ⟨seq, dropped, body⟩ := n
      cases body <;> rfl
    all_goals rfl
  · exact congrArg Host.Outcome.next (if_pos (State.ready_of hmode))
  · rw [exec_transmitBegin, execTransmitBegin]
    refine congrArg Host.Outcome.next ?_
    rcases hidle with hmode | hout
    · exact if_neg (mt s.ready_iff.1 hmode)
    · rw [State.modLink, Link.begun_of_outbound hout, State.setLink_same]
      exact ite_self _
  · exact congrArg Host.Outcome.next (if_pos (State.ready_of hmode))
  · simp only [State.attn, Bool.and_eq_true, Bool.or_eq_true, State.ready_iff, List.any_eq_true,
      ReplyEntry.isReply_iff, Bool.not_eq_true', List.isEmpty_eq_false_iff, or_assoc]
    refine and_congr Iff.rfl (or_congr ?_ (or_congr ⟨?_, ?_⟩ Iff.rfl))
    · cases s.linkA.outbound <;> simp
    · rintro ⟨e, he, q, rfl⟩
      exact ⟨q, he⟩
    · rintro ⟨q, he⟩
      exact ⟨_, he, q, rfl⟩

/-! ## Notices -/

theorem State.notify_eq (s : State) (x : LinkId) (body : NoticeBody) :
    s.notify x body = s.setLink x
      (if (s.link x).notices.length < 16 then
        { s.link x with
          notices := (s.link x).notices ++ [⟨(s.link x).seq, (s.link x).dropped, body⟩]
          seq := (s.link x).seq + 1#8
          dropped := 0 }
      else { s.link x with dropped := min 255 ((s.link x).dropped + 1) }) := rfl

/-- With no notice of the gang waiting, an edge queues a notice of its own (R76). -/
theorem State.notifyEdge_new {s : State} {x : LinkId} {g : GangId} (h : ∀ n ∈ (s.link x).notices, n.isEdgeOf g = false)
    (level : Bool) : s.notifyEdge x g level = s.notify x (.flagEdge g level 1 true) := by
  refine if_neg ?_
  simpa [List.any_eq_true] using h

theorem map_if_of_none {g : GangId} {level : Bool} {l : List Notice} (h : ∀ n ∈ l, n.isEdgeOf g = false) :
    l.map (fun n => if n.isEdgeOf g then n.addEdge level else n) = l := by
  refine (List.map_congr_left fun n hn => ?_).trans (List.map_id l)
  simp [h n hn]

/-- A waiting notice of the gang is updated in place (R178). -/
theorem State.notifyEdge_coalesces {s : State} {x : LinkId} {g : GangId} {old : Bool} {before after : List Notice}
    {seq : Byte} {dropped edges : Nat}
    (hnotices : (s.link x).notices = before ++ ⟨seq, dropped, .flagEdge g old edges true⟩ :: after)
    (hothers : ∀ n ∈ before ++ after, n.isEdgeOf g = false) (level : Bool) :
    s.notifyEdge x g level = s.setLink x
      { s.link x with
        notices := before ++ ⟨seq, dropped, .flagEdge g level (min 255 (edges + 1)) true⟩ :: after } := by
  have hwaits : (s.link x).notices.any (Notice.isEdgeOf g) = true := by
    simp [hnotices, Notice.isEdgeOf]
  have hbefore : ∀ n ∈ before, n.isEdgeOf g = false := fun n hn => hothers n (List.mem_append_left _ hn)
  have hafter : ∀ n ∈ after, n.isEdgeOf g = false := fun n hn => hothers n (List.mem_append_right _ hn)
  rw [State.notifyEdge, if_pos hwaits, State.modLink, hnotices, List.map_append, List.map_cons, map_if_of_none hbefore,
    map_if_of_none hafter]
  simp [Notice.isEdgeOf, Notice.addEdge]

theorem flagByte_eq (b : Bool) : flagByte b = [if b then 1#8 else 0#8] := by cases b <;> rfl

/-- Settles O51, by the definitions of the notices' queue and fields. -/
theorem noticesQueueWithTheirFields : Obligations.NoticesQueueWithTheirFields := by
  refine ⟨State.notify_eq, fun s x g level h => State.notifyEdge_new h level,
    fun s x g level old before after seq dropped edges hnotices hothers =>
      State.notifyEdge_coalesces hnotices hothers level, ?_⟩
  intro seq d job cause moves barriers extents largest edges done g stopped level live scope why reason phase fault
  refine ⟨?_, ?_, ?_, ?_, ?_, ?_, ?_, rfl⟩
  · cases scope <;> cases why <;> rfl
  · simp [Notice.payload, NoticeBody.fields]
  · cases reason <;> cases phase <;> simp [Notice.payload, NoticeBody.fields, FaultReason.num, Phase.num, u8]
  · simp [Notice.payload, NoticeBody.fields]
  · simp [Notice.payload, NoticeBody.fields, flagByte_eq]
  · simp [Notice.payload, NoticeBody.fields, flagByte_eq]
  · cases fault <;> rfl

/-! ## SYNC -/

/-- The one reservation of a reply queue becomes the reply (R150). -/
theorem replaceReservation_append (r : Reply) {before after : List ReplyEntry} (hbefore : .reservation ∉ before)
    (hafter : .reservation ∉ after) :
    replaceReservation r (before ++ .reservation :: after) = before ++ .reply r :: after := by
  have hsplit : replaceReservation r (before ++ .reservation :: after) =
      replaceReservation r before ++ .reply r :: replaceReservation r after := by
    simp [replaceReservation]
  rw [hsplit, replaceReservation_of_not_mem r hbefore, replaceReservation_of_not_mem r hafter]

theorem exec_syncTimerExpiry (x : LinkId) (s : State) :
    exec (.syncTimerExpiry x) s = execSyncTimerExpiry x s := by rfl

/-- The gang of a payload's byte is the slot of that number. -/
theorem State.gangAt_val {s : State} {n : Nat} {g : GangId} {G : Gang} (h : s.gangAt n = some (g, G)) : n = g.val := by
  unfold State.gangAt at h
  split_ifs at h with hn
  obtain ⟨_, -, h⟩ := Option.map_eq_some_iff.1 h
  cases h
  rfl

/-- Settles O19, along the checks of R152. -/
theorem syncWaitsForTheGang : Obligations.SyncWaitsForTheGang := by
  refine ⟨fun s x r rest g hi lo htake hcode hpay => ?_, fun s x p hmode hsync => ?_, fun s x hsync => ?_,
    fun r before after hbefore hafter => replaceReservation_append r hbefore hafter⟩
  · intro timeout
    have hbyte : byteAt r.payload 0 = g.toNat := by rw [hpay]; rfl
    have htime : be16 r.payload 1 = timeout := by rw [hpay]; rfl
    rw [exec_sync, execSync, State.take_eq htake (by simp [hcode, Code.sync]), if_pos (by simp [hpay]), hbyte,
      State.popped_gangAt]
    refine congrArg _ ?_
    cases hgang : s.gangAt g.toNat with
    | none => exact answer_refuse ..
    | some e =>
      obtain ⟨h, G⟩ := e
      have hval : g.toNat = h.val := State.gangAt_val hgang
      simp only [htime]
      refine if_congr Iff.rfl (answer_refuse ..) (if_congr List.isEmpty_iff ?_ ?_)
      · rw [answer_ok_same, ← hval, u8_toNat]
        rfl
      · have hslot : Fin.ofNat 8 g.toNat = h := by ext; simp [hval]
        rw [hslot, State.holdSync, State.modLink, State.popped, State.setLink_link_self, State.setLink_setLink]
  · rw [exec_syncTimerExpiry, execSyncTimerExpiry, if_pos (State.ready_of hmode), State.resolveSyncOf, hsync]
    exact congrArg _ (State.resolveSync_eq hsync _)
  · rw [exec_syncTimerExpiry, execSyncTimerExpiry, State.resolveSyncOf, hsync]
    exact congrArg _ (ite_self _)

end Sys2Proof.Machine
end

section
/-! PROOFS. A request frame sent byte by byte (R142-R145, R148): what the frame layout writes the parser reads. -/

namespace Sys2Proof.Machine

/-! ## Runs of commands -/

theorem runAll_cons {c : Instr} {s t : State} (h : exec c s = .next t) (cs : List Instr) :
    runAll (c :: cs) s = runAll cs t := by
  rw [runAll, List.foldl_cons, h]
  rfl

theorem runAll_append (cs ds : List Instr) (s : State) : runAll (cs ++ ds) s = runAll ds (runAll cs s) :=
  List.foldl_append

/-! ## The link while a frame is received -/

/-- What one byte exchange does to a link: Link A sends a byte, Link B has no exchanges (R139, R140). -/
def sendOn : LinkId → Link → Link
  | .a => Link.exchanged
  | .b => id

/-- The link with its parser inside a frame. -/
def Link.inFrame (l : Link) (p : ParserState) (buffer : List Byte) : Link := { l with parser := p, buffer := buffer }

theorem Link.begun_inFrame (l : Link) (p : ParserState) (buffer : List Byte) :
    (l.inFrame p buffer).begun = l.begun.inFrame p buffer := by
  cases hout : l.outbound with
  | some o =>
    have hstands : l.outbound ≠ none := by simp [hout]
    rw [Link.begun_of_outbound hstands, Link.begun_of_outbound (l := l.inFrame p buffer) hstands]
  | none =>
    rw [Link.begun_idle hout, Link.begun_idle (show (l.inFrame p buffer).outbound = none from hout)]
    obtain ⟨_, _, _, _, replies, notices, _, _, _⟩ := l
    rcases replies with _ | ⟨_ | _, _⟩ <;> rcases notices with _ | ⟨_, _⟩ <;> rfl

/-- What a link sends does not depend on what it receives. -/
theorem sendOn_inFrame (x : LinkId) (l : Link) (p : ParserState) (buffer : List Byte) :
    sendOn x (l.inFrame p buffer) = (sendOn x l).inFrame p buffer := by
  cases x with
  | a =>
    show Link.exchanged _ = Link.inFrame (Link.exchanged l) p buffer
    rw [Link.exchanged, Link.begun_inFrame]
    rfl
  | b => rfl

theorem sendOn_keeps (x : LinkId) (l : Link) :
    (sendOn x l).intake = l.intake ∧ (sendOn x l).sync = l.sync := by
  cases x with
  | a => exact ⟨l.exchanged_keeps.2.2.1, l.exchanged_keeps.2.2.2.1⟩
  | b => exact ⟨rfl, rfl⟩

theorem sendMany_keeps (x : LinkId) (n : Nat) (l : Link) :
    (Nat.repeat (sendOn x) n l).intake = l.intake ∧ (Nat.repeat (sendOn x) n l).sync = l.sync := by
  induction n with
  | zero => exact ⟨rfl, rfl⟩
  | succ n ih => exact ⟨(sendOn_keeps x _).1.trans ih.1, (sendOn_keeps x _).2.trans ih.2⟩

theorem sendMany_b (n : Nat) (l : Link) : Nat.repeat (sendOn .b) n l = l := by
  induction n with
  | zero => rfl
  | succ n ih => exact ih

theorem State.exchange_link_ready {s : State} {x : LinkId} (h : s.receiving x = true) :
    (s.exchange x).link x = sendOn x (s.link x) := by
  cases x with
  | b => rfl
  | a => rw [State.exchange, (State.ready_iff s).1 h]; rfl

/-- `t` is `s` after link `x` has exchanged `n` bytes of a frame that its parser now holds `buffer` of. -/
structure InFrame (s : State) (x : LinkId) (n : Nat) (p : ParserState) (buffer : List Byte) (t : State) : Prop where
  link : t.link x = (Nat.repeat (sendOn x) n (s.link x)).inFrame p buffer
  other : t.link x.other = s.link x.other
  receiving : t.receiving x = s.receiving x
  rest : t.gangs = s.gangs ∧ t.dir = s.dir ∧ t.store = s.store ∧ t.lanes = s.lanes

theorem State.setParser_link_other (s : State) (x : LinkId) (p : ParserState) (buffer : List Byte) :
    (s.setParser x p buffer).link x.other = s.link x.other := by
  cases x <;> rfl

theorem State.setParser_receiving (s : State) (x : LinkId) (p : ParserState) (buffer : List Byte) :
    (s.setParser x p buffer).receiving x = s.receiving x := by
  cases x <;> rfl

theorem State.setParser_rest (s : State) (x : LinkId) (p : ParserState) (buffer : List Byte) :
    (s.setParser x p buffer).gangs = s.gangs ∧ (s.setParser x p buffer).dir = s.dir ∧
      (s.setParser x p buffer).store = s.store ∧ (s.setParser x p buffer).lanes = s.lanes := by
  cases x <;> exact ⟨rfl, rfl, rfl, rfl⟩

/-- One byte more: the exchange sends a byte, and the parser goes on to `p'` with `buffer'`. -/
theorem InFrame.next {s t : State} {x : LinkId} {n : Nat} {p : ParserState} {buffer : List Byte}
    (h : InFrame s x n p buffer t) (hrec : s.receiving x = true) (p' : ParserState) (buffer' : List Byte) :
    InFrame s x (n + 1) p' buffer' ((t.exchange x).setParser x p' buffer') := by
  obtain ⟨hlink, hother, hreceiving, hgangs, hdir, hstore, hlanes⟩ := h
  obtain ⟨ssel, sdo, l, honly⟩ := t.exchange_only x
  obtain ⟨hg, hd, hs, hl⟩ := (t.exchange x).setParser_rest x p' buffer'
  refine ⟨?_, ?_, ?_, hg.trans ?_, hd.trans ?_, hs.trans ?_, hl.trans ?_⟩
  · rw [State.setParser_link, State.exchange_link_ready (hreceiving.trans hrec), hlink, sendOn_inFrame]
    rfl
  · rw [State.setParser_link_other]
    cases x with
    | a => rw [honly]; exact hother
    | b => exact hother
  · rw [State.setParser_receiving]
    cases x with
    | a => rw [honly]; exact hreceiving
    | b => exact hreceiving
  · rw [honly]; exact hgangs
  · rw [honly]; exact hdir
  · rw [honly]; exact hstore
  · rw [honly]; exact hlanes

/-! ## The parser along a frame -/

/-- Where the parser stands after `n` bytes of a frame with a payload of `length` bytes (R144). -/
def parserAt (length n : Nat) : ParserState :=
  if n = 0 then .hunting else if n < 5 then .header else if n < 5 + length then .payload else .crc

theorem parserAt_of_pos {n : Nat} (h : 0 < n) (length : Nat) :
    parserAt length n = if n < 5 then .header else if n < 5 + length then .payload else .crc :=
  if_neg (by omega)

/-- A frame of the layout of R142 that the parser can take: a sync byte first, and the payload's length in byte 4. -/
structure FrameShape (frame : List Byte) (length : Nat) : Prop where
  size : frame.length = 7 + length
  sync : frame[0]? = some syncByte
  count : byteAt frame 4 = length
  fits : length ≤ 232

theorem FrameShape.byteAt_take {frame : List Byte} {length : Nat} (h : FrameShape frame length) {n : Nat} (hn : 5 ≤ n) :
    byteAt (frame.take n) 4 = length := by
  rw [← h.count]
  simp [byteAt, List.getD, show 4 < n by omega]

theorem FrameShape.take_length {frame : List Byte} {length : Nat} (h : FrameShape frame length) {n : Nat}
    (hn : n ≤ 7 + length) : (frame.take n).length = n := by
  rw [List.length_take, h.size]
  omega

/-- Each byte but the last completes nothing. -/
theorem FrameShape.role {frame : List Byte} {length : Nat} (h : FrameShape frame length) {n : Nat}
    (hn : n < 6 + length) {b : Byte} (hb : frame[n]? = some b) {l : Link} (hp : l.parser = parserAt length n)
    (hbuffer : l.buffer = frame.take n) : byteRole l b = .plain := by
  have hlen : l.buffer.length = n := by rw [hbuffer, h.take_length (by omega)]
  unfold parserAt at hp
  split_ifs at hp with hzero hheader hpayload
  · exact byteRole_hunting hp b
  · rw [byteRole_header hp, if_neg]
    rintro ⟨hfour, hlong⟩
    have hcount : b.toNat = length := by
      rw [← h.count, byteAt, List.getD, ← hfour, hlen, hb]
      rfl
    have hfits := h.fits
    unfold payloadCap at hlong
    omega
  · exact byteRole_payload hp b
  · rw [byteRole_crc hp, if_neg]
    rw [hlen, hbuffer, h.byteAt_take (by omega)]
    omega

/-- The parser follows the layout inside a frame. -/
theorem FrameShape.parserAfter_take {frame : List Byte} {length : Nat} (h : FrameShape frame length) {n : Nat}
    (hpos : 0 < n) (hn : n < 6 + length) :
    parserAfter (parserAt length n) (frame.take (n + 1)) = parserAt length (n + 1) := by
  have hlen : (frame.take (n + 1)).length = n + 1 := h.take_length (by omega)
  rw [parserAt_of_pos hpos, parserAt_of_pos (Nat.succ_pos n)]
  by_cases hheader : n + 1 < 5
  · rw [if_pos (by omega), if_pos hheader, parserAfter, if_neg (by omega)]
  · rw [if_neg hheader]
    have hcount := h.byteAt_take (n := n + 1) (by omega)
    by_cases hlast : n < 5
    · rw [if_pos hlast, parserAfter, if_pos (by omega), hcount]
      by_cases hempty : length = 0
      · rw [if_pos hempty, if_neg (by omega)]
      · rw [if_neg hempty, if_pos (by omega)]
    · rw [if_neg hlast]
      by_cases hpayload : n < 5 + length
      · rw [if_pos hpayload, parserAfter, hcount]
        by_cases hend : n + 1 < 5 + length
        · rw [if_neg (by omega), if_pos hend]
        · rw [if_pos (by omega), if_neg hend]
      · rw [if_neg hpayload, if_neg (by omega), parserAfter]

theorem take_succ_of_getElem? {l : List Byte} {n : Nat} {b : Byte} (h : l[n]? = some b) : l.take n ++ [b] = l.take (n + 1) := by
  rw [List.take_add_one, h]
  rfl

/-- The sync byte begins the frame. -/
theorem FrameShape.first {frame : List Byte} {length : Nat} (h : FrameShape frame length) {s : State} {x : LinkId}
    (hrec : s.receiving x = true) (hhunting : (s.link x).parser = .hunting) :
    ∃ u, exec (.byteReceived x syncByte) s = .next u ∧ InFrame s x 1 (parserAt length 1) (frame.take 1) u := by
  have hone : frame.take 1 = [syncByte] := by rw [← take_succ_of_getElem? h.sync]; rfl
  have hidle : InFrame s x 0 .hunting (s.link x).buffer s :=
    ⟨by rw [← hhunting]; rfl, rfl, rfl, rfl, rfl, rfl, rfl⟩
  refine ⟨_, ?_, hidle.next hrec _ _⟩
  rw [exec_byteReceived_plain (byteRole_hunting hhunting _), if_pos hrec,
    State.storeByte_hunting ((s.exchange_link x).1.trans hhunting), if_pos rfl, hone]
  rfl

/-- One byte more of the frame that completes nothing. -/
theorem FrameShape.step {frame : List Byte} {length : Nat} (h : FrameShape frame length) {s t : State} {x : LinkId}
    {n : Nat} (hrec : s.receiving x = true) (hpos : 0 < n) (hn : n < 6 + length) {b : Byte} (hb : frame[n]? = some b)
    (hin : InFrame s x n (parserAt length n) (frame.take n) t) :
    ∃ u, exec (.byteReceived x b) t = .next u ∧
      InFrame s x (n + 1) (parserAt length (n + 1)) (frame.take (n + 1)) u := by
  have hp : (t.link x).parser = parserAt length n := by rw [hin.link]; rfl
  have hbuffer : (t.link x).buffer = frame.take n := by rw [hin.link]; rfl
  have hframing : parserAt length n ≠ .hunting := by
    rw [parserAt_of_pos hpos]
    split_ifs <;> simp
  refine ⟨_, ?_, hin.next hrec _ _⟩
  rw [exec_byteReceived_framing (hin.receiving.trans hrec) (h.role hn hb hp hbuffer) (by rwa [hp]), hp, hbuffer,
    take_succ_of_getElem? hb, h.parserAfter_take hpos hn]

/-- All bytes of the frame up to its second check byte, one after another. -/
theorem FrameShape.run {frame : List Byte} {length : Nat} (h : FrameShape frame length) {s : State} {x : LinkId}
    (hrec : s.receiving x = true) (hhunting : (s.link x).parser = .hunting) (n : Nat) (hn : n < 6 + length) :
    InFrame s x (n + 1) (parserAt length (n + 1)) (frame.take (n + 1))
      (runAll ((frame.take (n + 1)).map (Instr.byteReceived x)) s) := by
  induction n with
  | zero =>
    obtain ⟨u, hexec, hin⟩ := h.first hrec hhunting
    have hone : frame.take 1 = [syncByte] := by rw [← take_succ_of_getElem? h.sync]; rfl
    rw [hone] at hin
    rw [hone, List.map_singleton, runAll_cons hexec]
    exact hin
  | succ n ih =>
    obtain ⟨b, hb⟩ : ∃ b, frame[n + 1]? = some b := ⟨_, List.getElem?_eq_getElem (by rw [h.size]; omega)⟩
    obtain ⟨u, hexec, hin⟩ := h.step hrec (Nat.succ_pos n) hn hb (ih (by omega))
    rw [← take_succ_of_getElem? hb, List.map_append, List.map_singleton, runAll_append, runAll_cons hexec,
      take_succ_of_getElem? hb]
    exact hin

/-! ## Request frames -/

theorem u16_length (n : Nat) : (u16 n).length = 2 := rfl

theorem frameBytes_shape (kind tag code : Byte) {payload : List Byte} (h : payload.length ≤ 232) :
    FrameShape (frameBytes kind tag code payload) payload.length where
  size := by
    simp only [frameBytes, checkBytes, u8, List.length_cons, List.length_append, List.length_nil, u16_length]
    omega
  sync := rfl
  count := by
    show (BitVec.ofNat 8 payload.length).toNat = payload.length
    simp only [BitVec.toNat_ofNat]
    omega
  fits := h

theorem frameBytes_checkOk (kind tag code : Byte) {payload : List Byte} (h : payload.length ≤ 232) :
    checkOk (frameBytes kind tag code payload) = true := by
  have hcount := (frameBytes_shape kind tag code h).count
  set body := kind :: tag :: code :: (u8 payload.length ++ payload) with hbody
  have hframe : frameBytes kind tag code payload = syncByte :: (body ++ checkBytes body) := rfl
  have hlen : body.length = 4 + payload.length := by
    simp only [hbody, u8, List.length_cons, List.length_append, List.length_nil]
    omega
  have htake : (body ++ checkBytes body).take (4 + payload.length) = body := by
    rw [← hlen, List.take_left]
  have hdrop : (body ++ checkBytes body).drop (4 + payload.length) = checkBytes body := by
    rw [← hlen, List.drop_left]
  rw [checkOk, hcount, hframe, show 5 + payload.length = (4 + payload.length) + 1 by omega, List.drop_succ_cons,
    List.drop_succ_cons, List.drop_zero, htake, hdrop, beq_self_eq_true]

theorem frameRequest_frameBytes (kind tag code : Byte) {payload : List Byte} (h : payload.length ≤ 232) :
    frameRequest (frameBytes kind tag code payload) = ⟨tag, code, payload⟩ := by
  have hpayload : (frameBytes kind tag code payload).drop 5 =
      payload ++ checkBytes (kind :: tag :: code :: (u8 payload.length ++ payload)) := rfl
  rw [frameRequest, (frameBytes_shape kind tag code h).count, hpayload, List.take_left]
  rfl

/-- Settles O11: the parser follows the layout up to the second check byte, which completes a good frame. -/
theorem frameBytesCarryTheRequest : Obligations.FrameBytesCarryTheRequest := by
  intro s x tag code payload hfits hrec hhunting hroom htags hsync frame t sending
  have hshape : FrameShape frame payload.length := frameBytes_shape 1#8 tag code hfits
  have hsize := hshape.size
  obtain ⟨c, hc⟩ : ∃ c, frame[6 + payload.length]? = some c := ⟨_, List.getElem?_eq_getElem (by omega)⟩
  have hwhole : frame.take (6 + payload.length) ++ [c] = frame := by
    rw [take_succ_of_getElem? hc, List.take_of_length_le (by omega)]
  have hfirst : frame.dropLast = frame.take (6 + payload.length) := by
    rw [List.dropLast_eq_take, hsize, show 7 + payload.length - 1 = 6 + payload.length by omega]
  have hlast : frame.drop (payload.length + 6) = [c] := by
    rw [Nat.add_comm]
    conv_lhs => rw [← hwhole]
    rw [List.drop_left' (hshape.take_length (by omega))]
  have hrun := hshape.run hrec hhunting (5 + payload.length) (by omega)
  rw [show 5 + payload.length + 1 = 6 + payload.length by omega] at hrun
  set u := runAll ((frame.take (6 + payload.length)).map (Instr.byteReceived x)) s with hu
  have hp : (u.link x).parser = .crc := by
    rw [hrun.link]
    exact (parserAt_of_pos (by omega) _).trans (by rw [if_neg (by omega), if_neg (by omega)])
  have hbuffer : (u.link x).buffer = frame.take (6 + payload.length) := by rw [hrun.link]; rfl
  have hcompletes : byteRole (u.link x) c = .completes := by
    rw [byteRole_crc hp, if_pos]
    rw [hbuffer, hshape.take_length (by omega), hshape.byteAt_take (by omega)]
  have hended := hrun.next hrec .hunting []
  set ended := (u.exchange x).setParser x .hunting [] with hendedDef
  obtain ⟨hintake, hsync'⟩ := sendMany_keeps x (6 + payload.length + 1) (s.link x)
  have hlink := hended.link
  have hfree : (ended.link x).tagInUse tag = false := by
    rw [Bool.eq_false_iff, ne_eq, Link.tagInUse_iff, hlink]
    rintro (⟨q, hq, hqtag⟩ | ⟨p, hp, hptag⟩)
    · exact htags q (hintake ▸ hq) hqtag
    · exact hsync p (hsync' ▸ Option.mem_toList.1 hp) hptag
  have hopen : ¬ intakeCap ≤ (ended.link x).intake.length := by
    rw [hlink]
    show ¬ 4 ≤ (Nat.repeat (sendOn x) _ (s.link x)).intake.length
    rw [hintake]
    omega
  have hexec : exec (.frameReceived x c) u = .next (ended.modLink x fun l =>
      { l with intake := l.intake ++ [⟨tag, code, payload⟩] }) := by
    rw [exec_frameReceived, execFrameReceived, if_pos (by simp [hrun.receiving, hrec, hcompletes]), hbuffer, hwhole]
    refine congrArg _ ?_
    show ended.frameComplete x frame = _
    have hkind : frame.getD 1 0x00#8 = 1#8 := rfl
    rw [State.frameComplete, frameBytes_checkOk _ _ _ hfits, hkind, frameRequest_frameBytes _ _ _ hfits]
    simp [State.offer, hfree, hopen]
  have ht : t = ended.setLink x
      { ended.link x with intake := (ended.link x).intake ++ [⟨tag, code, payload⟩] } := by
    show runAll (frame.dropLast.map _ ++ (frame.drop (payload.length + 6)).map _) s = _
    rw [hfirst, hlast, List.map_singleton, runAll_append, runAll_cons hexec]
    rfl
  have hsending : sending = Nat.repeat (sendOn x) (6 + payload.length + 1) (s.link x) := by
    cases x with
    | a =>
      show Nat.repeat Link.exchanged frame.length s.linkA = _
      rw [hsize, show 7 + payload.length = 6 + payload.length + 1 by omega]
      rfl
    | b => exact (sendMany_b _ _).symm
  obtain ⟨hgangs, hdir, hstore, hlanes⟩ := hended.rest
  refine ⟨?_, ?_, ?_, ?_, ?_, ?_⟩
  · rw [ht, State.setLink_link_self, hlink, hsending]
    show _ = ({ Nat.repeat (sendOn x) _ (s.link x) with parser := .hunting, buffer := [], intake := _ } : Link)
    rw [← hintake]
    rfl
  · rw [ht, State.setLink_link_other, hended.other]
  · rw [ht, State.setLink_gangs, hgangs]
  · rw [ht, State.setLink_dir, hdir]
  · rw [ht, State.setLink_store, hstore]
  · rw [ht, State.setLink_lanes, hlanes]

end Sys2Proof.Machine
end

section
/-! PROOFS. The gangs area: FORM (R62), DISSOLVE (R63), CONFIGURE (R64, R65), GANG-STATUS (R75), SET-LINES (R72), GET-LINES
(R74), and the levels of the lanes (R55-R58). -/

namespace Sys2Proof.Machine

theorem exec_form (x : LinkId) (s : State) : exec (.form x) s = execForm x s := by rfl

theorem exec_dissolve (x : LinkId) (s : State) : exec (.dissolve x) s = execDissolve x s := by rfl

theorem exec_configure (x : LinkId) (s : State) : exec (.configure x) s = execConfigure x s := by rfl

theorem exec_gangStatus (x : LinkId) (s : State) : exec (.gangStatus x) s = execGangStatus x s := by rfl

theorem exec_setLines (x : LinkId) (s : State) : exec (.setLines x) s = execSetLines x s := by rfl

theorem exec_getLines (x : LinkId) (board : Board) (s : State) :
    exec (.getLines x board) s = execGetLines x board s := by rfl

@[simp] theorem State.popped_lanes (s : State) (x : LinkId) (rest : List Request) :
    (s.popped x rest).lanes = s.lanes := by
  cases x <;> rfl

@[simp] theorem State.popped_pins (s : State) (x : LinkId) (rest : List Request) :
    (s.popped x rest).pins = s.pins := by
  cases x <;> rfl

/-! ## FORM -/

theorem State.laneTaken_iff (s : State) (first width : Nat) :
    s.laneTaken first width = true ↔
      ∃ i : LaneId, (first ≤ i.val ∧ i.val < first + width) ∧ s.lanes[i].gang ≠ none := by
  simp [State.laneTaken, Option.isSome_iff_ne_none]

theorem State.freeGang_eq_none_iff (s : State) : s.freeGang = none ↔ ∀ g : GangId, s.gang g ≠ none := by
  simp [State.freeGang, List.find?_eq_none]

theorem State.freeGang_lowest {s : State} {g : GangId} (h : s.freeGang = some g) :
    s.gang g = none ∧ ∀ k : GangId, k < g → s.gang k ≠ none := by
  obtain ⟨hfree, low, high, hsplit, hlow⟩ := List.find?_eq_some_iff_append.1 h
  refine ⟨by simpa using hfree, fun k hk => ?_⟩
  have hsorted : (low ++ g :: high).Pairwise (· < ·) := hsplit ▸ List.pairwise_lt_finRange 8
  have hmem : k ∈ low ++ g :: high := hsplit ▸ List.mem_finRange k
  rcases List.mem_append.1 hmem with hin | hin
  · simpa [Option.isSome_iff_ne_none] using hlow k hin
  · rcases List.mem_cons.1 hin with rfl | hhigh
    · exact absurd hk (lt_irrefl _)
    · have hlt := List.rel_of_pairwise_cons (List.pairwise_append.1 hsorted).2.1 hhigh
      exact absurd (hk.trans hlt) (lt_irrefl _)

theorem State.popped_laneTaken (s : State) (x : LinkId) (rest : List Request) (first width : Nat) :
    (s.popped x rest).laneTaken first width = s.laneTaken first width := by
  cases x <;> rfl

theorem State.popped_freeGang (s : State) (x : LinkId) (rest : List Request) :
    (s.popped x rest).freeGang = s.freeGang := by
  cases x <;> rfl

theorem State.popped_formGang (s : State) (x : LinkId) (rest : List Request) (g : GangId) (G : Gang) :
    (s.popped x rest).formGang g G = (s.formGang g G).popped x rest := by
  cases x <;> rfl

/-- FORM on lanes that exist: the lanes must be free, and a slot of the gang table (R62). -/
theorem formRule_inRange {first width : Nat} (h : first < 10) (hwidth : ¬(width = 0 ∨ 10 < first + width)) (x : LinkId)
    (s : State) :
    formRule x first width s =
      if s.laneTaken first width then .refuse .laneTaken
      else s.freeGang.elim (.refuse .gangTableFull) fun g =>
        .ok (u8 g.val ++ u8 first ++ u8 width) (s.formGang g (newGang x ⟨first, h⟩ width s.pins[first].flg)) := by
  rw [formRule, dif_pos h, if_neg hwidth]
  cases s.freeGang <;> rfl

/-- Settles O33, along the checks of R62. -/
theorem formCreatesAGang : Obligations.FormCreatesAGang := by
  intro s x r rest first width htake hcode hpay within refused
  have hfirst : byteAt r.payload 0 = first.toNat := by rw [hpay]; rfl
  have hwidth : byteAt r.payload 1 = width.toNat := by rw [hpay]; rfl
  have hexec : exec (.form x) s =
      .next (answer x r (s.popped x rest) (formRule x first.toNat width.toNat (s.popped x rest))) := by
    rw [exec_form, execForm, State.serve_eq (code := Code.form) htake hcode (by simp [hpay]), hfirst, hwidth]
  by_cases hfield : 9 < first.toNat ∨ width.toNat = 0 ∨ 10 < first.toNat + width.toNat
  · have hstatus : refused = some 3#8 := if_pos hfield
    have hrule : formRule x first.toNat width.toNat (s.popped x rest) = .refuse .badField := by
      unfold formRule
      split
      · rw [if_pos (by omega)]
      · rfl
    rw [hstatus]
    dsimp only
    rw [hexec, hrule, answer_refuse]
    rfl
  · have hin : first.toNat < 10 := by omega
    have hrule := formRule_inRange hin (width := width.toNat) (by omega) x (s.popped x rest)
    rw [State.popped_laneTaken, State.popped_freeGang] at hrule
    by_cases htaken : ∃ i : LaneId, within i ∧ s.lanes[i].gang ≠ none
    · have hstatus : refused = some 19#8 := (if_neg hfield).trans (if_pos htaken)
      rw [hstatus]
      dsimp only
      rw [hexec, hrule, if_pos ((s.laneTaken_iff _ _).2 htaken), answer_refuse]
      rfl
    · rw [if_neg (mt (s.laneTaken_iff _ _).1 htaken)] at hrule
      cases hfree : s.freeGang with
      | none =>
        have hstatus : refused = some 20#8 :=
          (if_neg hfield).trans ((if_neg htaken).trans (if_pos (s.freeGang_eq_none_iff.1 hfree)))
        rw [hstatus]
        dsimp only
        rw [hexec, hrule, hfree]
        exact congrArg _ (answer_refuse ..)
      | some g =>
        obtain ⟨hslot, hlowest⟩ := State.freeGang_lowest hfree
        have hstatus : refused = none :=
          (if_neg hfield).trans ((if_neg htaken).trans (if_neg fun hall => hall g hslot))
        rw [hstatus]
        dsimp only
        set G := newGang x ⟨first.toNat, hin⟩ width.toNat (s.popped x rest).pins[first.toNat].flg with hG
        have hnum : Fin.ofNat 10 first.toNat = ⟨first.toNat, hin⟩ := by
          ext
          exact Nat.mod_eq_of_lt hin
        refine ⟨g, (s.formGang g G).lanes, hslot, hlowest, fun i => ?_, ?_⟩
        · rw [State.formGang, State.modLanes_lane]
          refine if_congr ?_ rfl rfl
          simp only [hG, newGang, Gang.has, decide_eq_true_eq]
          exact Iff.rfl
        · rw [hexec, hrule, hfree]
          refine congrArg _ ?_
          show answer x r _ (.ok _ ((s.popped x rest).formGang g G)) = _
          rw [State.popped_formGang, answer_ok_popped, u8_toNat, u8_toNat]
          simp only [hnum, hG, State.popped_pins]
          rfl

/-! ## DISSOLVE -/

theorem State.popped_orphanEdges (s : State) (x : LinkId) (rest : List Request) (hit : GangId → Bool) :
    (s.popped x rest).orphanEdges x hit = (s.orphanEdges x hit).popped x rest := by
  simp only [State.orphanEdges, State.modLink, State.popped, State.setLink_link_self, State.setLink_setLink]

/-- The mark of a notice is no part of its frame, and an orphaned notice is the edge of no gang that went (R178). -/
theorem Notice.orphan_spec (n : Notice) (hit : GangId → Bool) :
    (n.orphan hit).seq = n.seq ∧ (n.orphan hit).dropped = n.dropped ∧ (n.orphan hit).frame = n.frame ∧
      ∀ g : GangId, (n.orphan hit).isEdgeOf g = (n.isEdgeOf g && !hit g) := by
  obtain ⟨seq, dropped, body⟩ := n
  cases body with
  | flagEdge h level edges live =>
    refine ⟨rfl, rfl, rfl, fun g => ?_⟩
    by_cases hh : h = g
    · subst hh
      simp [Notice.orphan, Notice.isEdgeOf]
    · simp [Notice.orphan, Notice.isEdgeOf, beq_eq_false_iff_ne.2 hh]
  | _ => exact ⟨rfl, rfl, rfl, fun g => rfl⟩

/-- Settles O34, along the checks of R63. -/
theorem dissolveFreesTheGang : Obligations.DissolveFreesTheGang := by
  refine ⟨fun s x r rest n htake hcode hpay => ?_, fun s x hit => rfl, Notice.orphan_spec, fun s x g level => ?_⟩
  · have hbyte : byteAt r.payload 0 = n.toNat := by rw [hpay]; rfl
    rw [exec_dissolve, execDissolve, State.serve_eq (code := Code.dissolve) htake hcode (by simp [hpay])]
    cases hgang : s.gangAt n.toNat with
    | none => exact congrArg _ (answer_ownedGang_absent (by rw [hbyte, hgang]) ..)
    | some e =>
      obtain ⟨g, G⟩ := e
      dsimp only
      rw [answer_ownedGang_formed (hbyte ▸ hgang)]
      by_cases howner : G.owner ≠ x
      · rw [if_pos howner, if_pos howner]
      rw [if_neg howner, if_neg howner]
      by_cases hqueue : G.queue ≠ []
      · rw [if_pos hqueue, if_pos ((queue_not_isEmpty_iff G).2 hqueue), answer_refuse]
        rfl
      rw [if_neg hqueue, if_neg (mt (queue_not_isEmpty_iff G).1 hqueue)]
      refine ⟨(s.modLanes G fun _ l => l.freed).lanes, fun i => s.modLanes_lane G _ i, ?_⟩
      have hdissolve : (s.popped x rest).dissolve g G =
          (({ s with
              lanes := (s.modLanes G fun _ l => l.freed).lanes
              gangs := s.gangs.set g none } : State).orphanEdges x (· == g)).popped x rest := by
        rw [← State.popped_orphanEdges, State.dissolve, not_not.1 howner]
        refine congrArg (fun u => State.orphanEdges u x (· == g)) ?_
        cases x <;> rfl
      have hnum : u8 g.val = [n] := by rw [← State.gangAt_val hgang, u8_toNat]
      rw [hdissolve, answer_ok_popped, hnum]
      rfl
  · refine State.notifyEdge_new ?_ level
    rw [State.orphanEdges, State.modLink, State.setLink_link_self]
    intro m hm
    obtain ⟨n, -, rfl⟩ := List.mem_map.1 hm
    rw [(n.orphan_spec _).2.2.2]
    simp

/-! ## CONFIGURE -/

/-- The mode of a number, backwards (R59). -/
theorem Mode.ofNum_eq_some_iff (n : Nat) (m : Mode) : Mode.ofNum n = some m ↔ n = m.num := by
  match n with
  | 0 | 1 | 2 | 3 | 4 => cases m <;> simp [Mode.ofNum, Mode.num]
  | n + 5 => cases m <;> simp [Mode.ofNum, Mode.num]

theorem Mode.ofNum_eq_none_iff (n : Nat) : Mode.ofNum n = none ↔ 4 < n := by
  match n with
  | 0 | 1 | 2 | 3 | 4 => simp [Mode.ofNum]
  | n + 5 => simp [Mode.ofNum]

/-- The configuration that the flag bytes of a CONFIGURE spell (R64). -/
def configOf (mode : Mode) (flags : List Byte) : GangConfig :=
  { mode := mode, manualOut := flags.getD 0 0x00#8 == 1#8, descending := flags.getD 1 0x00#8 == 1#8
    dataNeg := flags.getD 2 0x00#8 == 1#8, ctlNeg := flags.getD 3 0x00#8 == 1#8, flgNeg := flags.getD 4 0x00#8 == 1#8
    openDrain := flags.getD 5 0x00#8 == 1#8, pullUps := flags.getD 6 0x00#8 == 1#8
    holdOff := flags.getD 7 0x00#8 == 1#8, restHold := flags.getD 8 0x00#8 == 1#8, watch := flags.getD 9 0x00#8 == 1#8
    flagGate := flags.getD 10 0x00#8 == 1#8 }

theorem toNat_beq_one (b : Byte) : (b.toNat == 1) = (b == 1#8) := by
  rw [Bool.eq_iff_iff, beq_iff_eq, beq_iff_eq, BitVec.toNat_eq]
  rfl

/-- A CONFIGURE payload is read when its mode names one and every flag is 0 or 1 (R64). -/
theorem readConfig_cons (g mode : Byte) (flags : List Byte) :
    readConfig (g :: mode :: flags) =
      match Mode.ofNum mode.toNat with
      | none => none
      | some m => if ∃ b ∈ flags, 1 < b.toNat then none else some (configOf m flags) := by
  have hon (k : Nat) : (byteAt (g :: mode :: flags) (k + 2) == 1) = (flags.getD k 0x00#8 == 1#8) :=
    toNat_beq_one _
  unfold readConfig
  show (match Mode.ofNum mode.toNat with | none => none | some m => _) = _
  cases Mode.ofNum mode.toNat with
  | none => rfl
  | some m =>
    dsimp only
    by_cases hbad : ∃ b ∈ flags, 1 < b.toNat
    · rw [if_pos hbad, if_neg]
      obtain ⟨b, hb, hlarge⟩ := hbad
      simp only [List.drop_succ_cons, List.drop_zero, List.all_eq_true, decide_eq_true_eq, not_forall]
      exact ⟨b, hb, by omega⟩
    · rw [if_neg hbad, if_pos]
      · simp only [hon 0, hon 1, hon 2, hon 3, hon 4, hon 5, hon 6, hon 7, hon 8, hon 9, hon 10]
        rfl
      · simp only [not_exists, not_and, not_lt] at hbad
        simpa using hbad

/-- A flag byte of a request that is 0 or 1 is the flag's byte in the reply. -/
theorem flagByte_beq_one {b : Byte} (h : b.toNat ≤ 1) : flagByte (b == 1#8) = [b] := by
  have hcases : b = 0#8 ∨ b = 1#8 := by
    simp only [BitVec.toNat_eq, BitVec.toNat_ofNat]
    omega
  rcases hcases with rfl | rfl <;> rfl

theorem fields_configOf {mode : Mode} {flags : List Byte} (hlen : flags.length = 11) (h : ∀ b ∈ flags, b.toNat ≤ 1) :
    (configOf mode flags).fields = u8 mode.num ++ flags := by
  match flags, hlen with
  | [b0, b1, b2, b3, b4, b5, b6, b7, b8, b9, b10], _ =>
    simp only [List.forall_mem_cons, List.not_mem_nil, false_implies, implies_true, and_true] at h
    obtain ⟨h0, h1, h2, h3, h4, h5, h6, h7, h8, h9, h10⟩ := h
    simp [GangConfig.fields, configOf, flagByte_beq_one, h0, h1, h2, h3, h4, h5, h6, h7, h8, h9, h10]

theorem State.popped_configureGang (s : State) (x : LinkId) (rest : List Request) (g : GangId) (G : Gang)
    (c : GangConfig) : (s.popped x rest).configureGang g G c = (s.configureGang g G c).popped x rest := by
  cases x <;> rfl

theorem State.heldOff_eq (s : State) (G : Gang) :
    s.heldOff G = (G.cfg.holdOff && (List.finRange 10).any fun i => G.has i.val && !s.pins[i].hold) := by
  rw [State.heldOff, Gang.lanes, List.any_filter]

theorem Mode.num_eq_four_iff (m : Mode) : m.num = 4 ↔ m = .clocked := by cases m <;> simp [Mode.num]

/-- Settles O35, along the checks of R64. -/
theorem configureReplacesTheFields : Obligations.ConfigureReplacesTheFields := by
  intro s x r rest n mode flags htake hcode hpay hlen on
  have hbyte : byteAt r.payload 0 = n.toNat := by rw [hpay]; rfl
  rw [exec_configure, execConfigure, State.serve_eq (code := Code.configure) htake hcode (by simp [hpay, hlen])]
  cases hgang : s.gangAt n.toNat with
  | none => exact congrArg _ (answer_ownedGang_absent (by rw [hbyte, hgang]) ..)
  | some e =>
    obtain ⟨g, G⟩ := e
    dsimp only
    rw [answer_ownedGang_formed (hbyte ▸ hgang), hpay, readConfig_cons]
    by_cases howner : G.owner ≠ x
    · rw [if_pos howner, if_pos howner]
    rw [if_neg howner, if_neg howner]
    cases hmode : Mode.ofNum mode.toNat with
    | none =>
      rw [if_pos (.inl ((Mode.ofNum_eq_none_iff _).1 hmode))]
      exact congrArg _ (answer_refuse ..)
    | some m =>
      have hnum : mode.toNat = m.num := (Mode.ofNum_eq_some_iff _ _).1 hmode
      have hnamed : ¬ 4 < mode.toNat := fun h => by simp [(Mode.ofNum_eq_none_iff _).2 h] at hmode
      dsimp only
      by_cases hbad : ∃ b ∈ flags, 1 < b.toNat
      · rw [if_pos (.inr hbad), if_pos hbad]
        exact congrArg _ (answer_refuse ..)
      rw [if_neg (not_or.2 ⟨hnamed, hbad⟩), if_neg hbad]
      dsimp only
      by_cases hqueue : G.queue ≠ []
      · rw [if_pos hqueue, if_pos ((queue_not_isEmpty_iff G).2 hqueue), answer_refuse]
        rfl
      rw [if_neg hqueue, if_neg (mt (queue_not_isEmpty_iff G).1 hqueue)]
      have hclocked : (configOf m flags).mode = .clocked ∧ (!clockedTimingOk G.time) = true ↔
          mode.toNat = 4 ∧ ¬(G.time.settle < G.time.period ∧ G.time.pulse < G.time.period) := by
        rw [not_clockedTimingOk_iff, hnum, Mode.num_eq_four_iff]
        rfl
      by_cases htiming : mode.toNat = 4 ∧ ¬(G.time.settle < G.time.period ∧ G.time.pulse < G.time.period)
      · rw [if_pos htiming, if_pos (hclocked.2 htiming), answer_refuse]
        rfl
      rw [if_neg htiming, if_neg (mt hclocked.1 htiming)]
      refine ⟨configOf m flags, (s.configureGang g G (configOf m flags)).lanes, hnum.symm, rfl, rfl, rfl, rfl, rfl, rfl,
        rfl, rfl, rfl, rfl, rfl, fun i => ?_, ?_⟩
      · rw [State.configureGang, State.setDrivers_lane, State.heldOff_eq]
        rfl
      · have hsmall : ∀ b ∈ flags, b.toNat ≤ 1 := fun b hb => not_lt.1 fun h => hbad ⟨b, hb, h⟩
        rw [State.popped_configureGang, answer_ok_popped, fields_configOf hlen hsmall, ← hnum, u8_toNat]
        rfl

/-! ## SET-LINES -/

/-- Settles O39, along the checks of R72. -/
theorem setLinesLatchesTheBytes : Obligations.SetLinesLatchesTheBytes := by
  intro s x r rest n bytes htake hcode hpay hlen
  have hbyte : byteAt r.payload 0 = n.toNat := by rw [hpay]; rfl
  rw [exec_setLines, execSetLines, State.serve_eq (code := Code.setLines) htake hcode (by simp [hpay]; omega)]
  cases hgang : s.gangAt n.toNat with
  | none => exact congrArg _ (answer_ownedGang_absent (by rw [hbyte, hgang]) ..)
  | some e =>
    obtain ⟨g, G⟩ := e
    dsimp only
    rw [answer_ownedGang_formed (hbyte ▸ hgang), hpay, List.length_cons, Nat.add_sub_cancel]
    by_cases howner : G.owner ≠ x
    · rw [if_pos howner, if_pos howner]
    rw [if_neg howner, if_neg howner]
    by_cases hwidth : bytes.length ≠ G.width
    · rw [if_pos hwidth, if_pos hwidth, answer_refuse]
      rfl
    rw [if_neg hwidth, if_neg hwidth]
    by_cases hmode : G.cfg.mode ≠ .manual
    · rw [if_pos hmode, if_pos hmode, answer_refuse]
      rfl
    rw [if_neg hmode, if_neg hmode]
    rw [State.popped_heldOff]
    set driven := G.cfg.manualOut && !s.heldOff G
    refine ⟨(s.latchLines G bytes driven).lanes, fun i => ?_, ?_⟩
    · rw [State.latchLines, State.modLanes_lane]
      exact if_congr (by simp [Gang.has]) rfl rfl
    · have hlatch : (s.popped x rest).latchLines G bytes driven =
          ({ s with lanes := (s.latchLines G bytes driven).lanes } : State).popped x rest := by
        cases x <;> rfl
      show Host.Outcome.next (answer x r _ (.ok (flagByte driven) ((s.popped x rest).latchLines G bytes driven))) = _
      rw [hlatch, answer_ok_popped, flagByte_eq]
      rfl

/-! ## Levels of the lanes -/

theorem getLsbD_not8 (b : Byte) (k : Fin 8) : (~~~b).getLsbD k.val = !b.getLsbD k.val := by
  simp [k.isLt]

/-- A data bit under a data polarity (R56). -/
theorem Gang.polar_bit (G : Gang) (b : Byte) (k : Fin 8) :
    (G.polar b).getLsbD k.val = (b.getLsbD k.val ^^ G.cfg.dataNeg) := by
  cases h : G.cfg.dataNeg with
  | false => simp [Gang.polar, h]
  | true => simp [Gang.polar, h]

/-- A released line shows the board where it drives, else the pull-up, else the free value (R56, log 9). -/
theorem floatLevel_bit (pullUps : Bool) (board : BoardByte) (free : Byte) (k : Fin 8) :
    (floatLevel pullUps board free).getLsbD k.val =
      if board.driven.getLsbD k.val then board.level.getLsbD k.val else pullUps || free.getLsbD k.val := by
  have hones : (0xFF#8 : Byte).getLsbD k.val = true := by
    revert k
    decide
  have hpull : (if pullUps then 0xFF#8 else free).getLsbD k.val = (pullUps || free.getLsbD k.val) := by
    cases pullUps with
    | false => rfl
    | true => exact hones
  cases hdriven : board.driven.getLsbD k.val <;>
    simp only [floatLevel, BitVec.getLsbD_or, BitVec.getLsbD_and, getLsbD_not8, hdriven, hpull] <;> simp

/-- A line driven push-pull shows the part's level unless the board drives the opposite one (R113). -/
theorem pushPullLevel_bit (own : Byte) (board : BoardByte) (free : Byte) (k : Fin 8) :
    (pushPullLevel own board free).getLsbD k.val =
      if board.driven.getLsbD k.val && (board.level.getLsbD k.val ^^ own.getLsbD k.val) then free.getLsbD k.val
      else own.getLsbD k.val := by
  cases hdriven : board.driven.getLsbD k.val <;> cases hdiff : (board.level.getLsbD k.val ^^ own.getLsbD k.val) <;>
    simp only [pushPullLevel, BitVec.getLsbD_or, BitVec.getLsbD_and, BitVec.getLsbD_xor, getLsbD_not8, hdriven, hdiff] <;>
    simp

/-- Settles O38, bit by bit. -/
theorem sensedBytesFollowTheLines : Obligations.SensedBytesFollowTheLines := by
  refine ⟨fun s i k => ⟨rfl, fun g G hlane hG => ?_, fun hfree => ?_⟩, fun s G i k => ?_⟩
  · rw [State.lanePins, State.gangOfLane_of hlane hG]
  · rw [State.lanePins, State.gangOfLane_free hfree]
    exact (floatLevel_bit false _ _ k).trans (by simp)
  · intro pin driven level own
    have hown : (G.polar s.lanes[i].latched).getLsbD k.val = own := G.polar_bit _ k
    have hfloated (h : s.lanes[i].enabled = false) :
        pin = if driven then level else G.cfg.pullUps || (Config.freeLevel s.fresh i.val).getLsbD k.val := by
      show (s.dataPins G i).getLsbD k.val = _
      rw [State.dataPins, h]
      exact floatLevel_bit ..
    have hpushPull (h : s.lanes[i].enabled = true) (hstyle : G.cfg.openDrain = false) :
        pin = if driven && (level ^^ own) then (Config.freeLevel s.fresh i.val).getLsbD k.val else own := by
      show (s.dataPins G i).getLsbD k.val = _
      rw [State.dataPins, h, hstyle, ← hown]
      exact pushPullLevel_bit ..
    have hopenDrain (h : s.lanes[i].enabled = true) (hstyle : G.cfg.openDrain = true) :
        pin = (own && if driven then level else G.cfg.pullUps || (Config.freeLevel s.fresh i.val).getLsbD k.val) := by
      show (s.dataPins G i).getLsbD k.val = _
      rw [State.dataPins, h, hstyle, ← hown]
      exact (BitVec.getLsbD_and ..).trans (congrArg _ (floatLevel_bit ..))
    refine ⟨G.polar_bit _ k, fun h hd => ?_, fun h hd hpull => ?_, fun h hstyle hsame => ?_, fun h hstyle ho => ?_,
      fun h hstyle hd ho => ?_, fun h hstyle hd ho hpull => ?_⟩
    · rw [hfloated h, hd, if_pos rfl]
    · rw [hfloated h, hd, hpull]
      rfl
    · rw [hpushPull h hstyle]
      rcases hsame with hd | hlevel
      · rw [hd]
        rfl
      · simp [hlevel]
    · rw [hopenDrain h hstyle, ho, Bool.false_and]
    · rw [hopenDrain h hstyle, hd, ho, if_pos rfl, Bool.true_and]
    · rw [hopenDrain h hstyle, hd, ho, hpull]
      rfl

/-! ## GANG-STATUS and GET-LINES -/

theorem State.gangAt_iff (s : State) (n : Nat) (g : GangId) (G : Gang) :
    s.gangAt n = some (g, G) ↔ n = g.val ∧ s.gang g = some G := by
  refine ⟨fun h => ⟨State.gangAt_val h, State.gang_of_gangAt h⟩, ?_⟩
  rintro ⟨rfl, hG⟩
  rw [State.gangAt, dif_pos g.isLt]
  exact Option.map_eq_some_iff.2 ⟨G, hG, rfl⟩

theorem State.heldOff_iff (s : State) (G : Gang) :
    s.heldOff G = true ↔ G.cfg.holdOff = true ∧ ∃ i : LaneId, G.has i.val = true ∧ s.pins[i].hold = false := by
  simp [State.heldOff_eq]

/-- What a lane entry reads of the pins is what the board does not give (log 8). -/
theorem State.senseBoard_pin (s : State) (board : Board) (i : LaneId) :
    (s.senseBoard board).pins[i].flg = s.pins[i].flg ∧ (s.senseBoard board).pins[i].hold = s.pins[i].hold := by
  simp [State.senseBoard]

theorem State.senseBoard_heldOff (s : State) (board : Board) (G : Gang) :
    (s.senseBoard board).heldOff G = s.heldOff G := by
  simp only [State.heldOff, State.senseBoard_pin]

/-- The order of GANG-STATUS's fields (log 14). -/
theorem State.gangStatusFields_eq (s : State) (g : GangId) (G : Gang) :
    s.gangStatusFields g G =
      u8 g.val ++ u8 (linkNum G.owner) ++ u8 G.first.val ++ u8 G.width ++
        (u8 G.cfg.mode.num ++
          [G.cfg.manualOut, G.cfg.descending, G.cfg.dataNeg, G.cfg.ctlNeg, G.cfg.flgNeg, G.cfg.openDrain,
            G.cfg.pullUps, G.cfg.holdOff, G.cfg.restHold, G.cfg.watch, G.cfg.flagGate].flatMap flagByte) ++
        u32 G.time.settle ++ u32 G.time.pulse ++ u32 G.time.period ++ u16 G.time.timeout ++
        u8 G.run.num ++ u8 G.last.num ++ u8 G.queue.length ++
        (u16 ((G.queue.head?.map Job.id).getD 0) ++ u8 ((G.queue.head?.map fun J => J.state.num).getD 0)) ++
        [G.ctl, s.flg G, s.heldOff G, s.driving G, G.restDrive].flatMap flagByte ++
        u32 ((G.beat.map Beat.done).getD 0) := by
  simp [State.gangStatusFields, GangConfig.fields, GangTiming.fields]

@[simp] theorem State.popped_gangStatusFields (s : State) (x : LinkId) (rest : List Request) (g : GangId) (G : Gang) :
    (s.popped x rest).gangStatusFields g G = s.gangStatusFields g G := by
  cases x <;> rfl

theorem State.popped_senseBoard (s : State) (x : LinkId) (rest : List Request) (board : Board) :
    (s.popped x rest).senseBoard board = (s.senseBoard board).popped x rest := by
  cases x <;> rfl

theorem State.popped_getLinesFields (s : State) (x : LinkId) (rest : List Request) (G : Gang) :
    (s.popped x rest).getLinesFields G = s.getLinesFields G := by
  cases x <;> rfl

/-- GET-LINES's fields, with what a reading of the board changes and what it keeps (log 8, log 13). -/
theorem State.senseBoard_getLinesFields (s : State) (board : Board) (G : Gang) :
    (s.senseBoard board).getLinesFields G =
      [G.ctl, s.pins[G.first].flg ^^ G.cfg.flgNeg, s.heldOff G, s.lanes[G.first].enabled].flatMap flagByte ++
        (u8 G.beatLanes.length ++ G.beatLanes.flatMap fun i =>
          u8 i.val ++ [s.lanes[i].latched, (s.senseBoard board).sensed G i] ++
            [(s.senseBoard board).ctlPin i, s.pins[i].flg, s.pins[i].hold].flatMap flagByte) := by
  have hflg : (s.senseBoard board).flg G = (s.pins[G.first].flg ^^ G.cfg.flgNeg) := s.senseBoard_flg board G
  have hentry : (s.senseBoard board).laneEntry G = fun i : LaneId =>
      u8 i.val ++ [s.lanes[i].latched, (s.senseBoard board).sensed G i] ++
        [(s.senseBoard board).ctlPin i, s.pins[i].flg, s.pins[i].hold].flatMap flagByte := by
    funext i
    obtain ⟨hpin, hhold⟩ := s.senseBoard_pin board i
    rw [State.laneEntry, hpin, hhold]
    simp
  rw [State.getLinesFields, hflg, State.senseBoard_heldOff, listField, hentry]
  simp [State.driving]

/-- Settles O37: the fields in the order of R75 and R74. -/
theorem gangStatusAndGetLinesReport : Obligations.GangStatusAndGetLinesReport := by
  refine ⟨fun s x r rest n htake hcode hpay => ?_, State.gangAt_iff, ⟨rfl, rfl, rfl, rfl, rfl⟩, State.heldOff_iff,
    fun s x r rest n board htake hcode hpay => ?_⟩
  · have hbyte : byteAt r.payload 0 = n.toNat := by rw [hpay]; rfl
    rw [exec_gangStatus, execGangStatus, State.serve_eq (code := Code.gangStatus) htake hcode (by simp [hpay]), hbyte,
      State.popped_gangAt]
    refine congrArg _ ?_
    cases hgang : s.gangAt n.toNat with
    | none => exact answer_refuse ..
    | some e =>
      obtain ⟨g, G⟩ := e
      dsimp only
      rw [answer_ok_same, State.popped_gangStatusFields, State.gangStatusFields_eq, ← State.gangAt_val hgang, u8_toNat]
      refine congrArg _ ?_
      cases G.owner <;> cases G.queue <;> cases G.beat <;> rfl
  · have hbyte : byteAt r.payload 0 = n.toNat := by rw [hpay]; rfl
    rw [exec_getLines, execGetLines, State.serve_eq (code := Code.getLines) htake hcode (by simp [hpay]), hbyte,
      State.popped_gangAt]
    refine congrArg _ ?_
    cases hgang : s.gangAt n.toNat with
    | none => exact answer_refuse ..
    | some e =>
      obtain ⟨g, G⟩ := e
      dsimp only
      rw [State.popped_senseBoard, answer_ok_popped, State.popped_getLinesFields, State.senseBoard_getLinesFields]
      rfl

end Sys2Proof.Machine
end

section
/-! PROOFS. The beat of a transfer engine (R78-R97) and hold-off (R103-R109): each function of the engine on a gang whose
record and active job are known, and the rows of the lane pins and of the timed steps. -/

namespace Sys2Proof.Machine

theorem exec_flgChange (i : LaneId) (high : Bool) (board : Board) (s : State) :
    exec (.flgChange i high board) s = execFlgChange i high board s := by rfl

theorem exec_holdChange (i : LaneId) (high : Bool) (s : State) :
    exec (.holdChange i high) s = execHoldChange i high s := by rfl

theorem exec_settleEnd (g : GangId) (board : Board) (s : State) :
    exec (.settleEnd g board) s = execSettleEnd g board s := by rfl

theorem exec_pulseEnd (g : GangId) (s : State) : exec (.pulseEnd g) s = execPulseEnd g s := by rfl

theorem exec_periodEnd (g : GangId) (s : State) : exec (.periodEnd g) s = execPeriodEnd g s := by rfl

/-- A gang with an active job has one list of them: what is said of every active job is said of this one. -/
theorem State.Active.unique {s : State} {g : GangId} {G G' : Gang} {J J' : Job} {later later' : List Job}
    {B B' : Beat} (h : s.Active g G J later B) (h' : s.Active g G' J' later' B') :
    G' = G ∧ J' = J ∧ later' = later ∧ B' = B := by
  obtain ⟨hG, hq, hb⟩ := h
  obtain ⟨hG', hq', hb'⟩ := h'
  obtain rfl := Option.some.inj (hG.symm.trans hG')
  obtain ⟨rfl, rfl⟩ := List.cons.inj (hq.symm.trans hq')
  obtain rfl := Option.some.inj (hb.symm.trans hb')
  exact ⟨rfl, rfl, rfl, rfl⟩

section
variable {s : State} {g : GangId} {G : Gang} {J : Job} {later : List Job} {B : Beat}

/-! ## Small operations on an active gang -/

theorem State.Active.modBeat (h : s.Active g G J later B) (f : Beat → Beat) :
    s.modBeat g f = s.setGang g (some { G with beat := some (f B) }) :=
  State.modBeat_eq h.1 h.2.2 f

theorem State.Active.setPhase (h : s.Active g G J later B) (p : Phase) :
    s.setPhase g p = s.setGang g (some { G with beat := some { B with phase := some p } }) :=
  State.setPhase_eq h.1 h.2.2 p

theorem State.Active.setCtl (h : s.Active g G J later B) (level : Bool) :
    s.setCtl g level = s.setGang g (some { G with ctl := level }) :=
  State.setCtl_eq h.1 level

/-- CTL and the phase set together. -/
theorem State.Active.setCtl_setPhase (h : s.Active g G J later B) (level : Bool) (p : Phase) :
    (s.setCtl g level).setPhase g p =
      s.setGang g (some { G with ctl := level, beat := some { B with phase := some p } }) := by
  rw [h.setCtl, State.setGang_setPhase, h.2.2]
  rfl

/-! ## Drive and sample -/

/-- What a drive does to the lanes and to the beat (R81). -/
theorem State.Active.drive (h : s.Active g G J later B) {b : Block} (hb : s.block J.slot = some b) :
    s.drive g =
      (s.modLanes G fun i l =>
        { l with latched := s.store.get (beatAddr b J B G.width (G.byteOf i)), enabled := true }).setGang g
        (some { G with beat := some { B with drove := true } }) := by
  rw [State.drive, State.withActive_eq h, hb]
  exact State.modBeat_eq (s := s.modLanes G _) h.1 h.2.2 _

/-- What a sample does to the store and to the beat (R81). -/
theorem State.Active.sample (h : s.Active g G J later B) {b : Block} (hb : s.block J.slot = some b) :
    s.sample g =
      ({ s with store := s.store.setBytes (beatAddr b J B G.width 0) (G.beatLanes.map (s.sensed G)) } : State).setGang g
        (some { G with beat := some { B with sampled := true, done := B.done + 1 } }) := by
  rw [State.sample, State.withActive_eq h, hb]
  exact State.modBeat_eq (s := { s with store := s.store.setBytes (beatAddr b J B G.width 0) _ }) h.1 h.2.2 _

end

/-- The lanes of a gang whose run of lanes exists, in ascending order. -/
theorem Gang.lanes_map_val {G : Gang} (h : G.first.val + G.width ≤ 10) :
    G.lanes.map Fin.val = List.range' G.first.val G.width := by
  have hall : (List.finRange 10).map Fin.val = List.Ico 0 10 := by decide
  have hhas : (fun i : LaneId => G.has i.val) =
      (fun n => decide (G.first.val ≤ n) && decide (n < G.first.val + G.width)) ∘ Fin.val := by
    funext i
    simp [Gang.has]
  rw [Gang.lanes, hhas, ← List.filter_map, hall, ← List.filter_filter, List.Ico.filter_lt_of_ge h,
    List.Ico.filter_le_of_le (Nat.zero_le _), List.Ico, Nat.add_sub_cancel_left]

theorem Gang.lanes_length {G : Gang} (h : G.first.val + G.width ≤ 10) : G.lanes.length = G.width := by
  rw [← List.length_map (f := Fin.val), Gang.lanes_map_val h, List.length_range']

theorem Gang.lanes_get {G : Gang} (h : G.first.val + G.width ≤ 10) {i : LaneId} (hlow : G.first.val ≤ i.val)
    (hhigh : i.val < G.first.val + G.width) : G.lanes[i.val - G.first.val]? = some i := by
  have hval : (G.lanes.map Fin.val)[i.val - G.first.val]? = some i.val := by
    rw [Gang.lanes_map_val h, List.getElem?_range' (by omega)]
    exact congrArg some (by omega)
  rw [List.getElem?_map] at hval
  obtain ⟨j, hj, hji⟩ := Option.map_eq_some_iff.1 hval
  rw [hj, Fin.ext hji]

/-- The byte that a lane carries stands at the lane's place in beat byte order (R60). -/
theorem Gang.beatLanes_get {G : Gang} (h : G.first.val + G.width ≤ 10) {i : LaneId} (hlow : G.first.val ≤ i.val)
    (hhigh : i.val < G.first.val + G.width) : G.beatLanes[G.byteOf i.val]? = some i := by
  unfold Gang.beatLanes Gang.byteOf
  split_ifs
  · rw [List.getElem?_reverse (by rw [Gang.lanes_length h]; omega), Gang.lanes_length h, ← Gang.lanes_get h hlow hhigh]
    exact congrArg (G.lanes[·]?) (by omega)
  · exact Gang.lanes_get h hlow hhigh

theorem Gang.beatLanes_length {G : Gang} (h : G.first.val + G.width ≤ 10) : G.beatLanes.length = G.width := by
  unfold Gang.beatLanes
  split_ifs
  · rw [List.length_reverse, Gang.lanes_length h]
  · exact Gang.lanes_length h

/-- Settles O53: the lanes of a drive one by one, and the store bytes of a sample one by one. -/
theorem driveAndSampleMoveTheBeat : Obligations.DriveAndSampleMoveTheBeat := by
  intro s g G J later B b h hb start place
  have haddr (j : Nat) : beatAddr b J B G.width j = start + j := by
    simp only [beatAddr, Block.addr, start]
    omega
  refine ⟨⟨_, fun i => ?_, h.drive hb⟩, fun hlanes => ⟨_, fun i hlow hhigh hin => ?_, fun a ha => ?_, h.sample hb⟩⟩
  · rw [State.modLanes_lane]
    refine if_congr (by simp [Gang.has]) ?_ rfl
    rw [haddr]
    rfl
  · have hplace : G.byteOf i.val = place i := rfl
    have hlt : place i < G.width := by
      simp only [place]
      split_ifs <;> omega
    have hget := Gang.beatLanes_get hlanes hlow hhigh
    rw [haddr, Nat.add_zero, Mem.get_setBytes_inside, Nat.add_sub_cancel_left, List.getD, List.getElem?_map, ← hplace, hget]
    · rfl
    · rw [List.length_map, Gang.beatLanes_length hlanes]
      omega
    · exact hin
  · rw [haddr, Nat.add_zero, Mem.get_setBytes_outside]
    rw [List.length_map, Gang.beatLanes_length hlanes]
    exact ha

/-! ## The beginning of a beat -/

section
variable {s : State} {g : GangId} {G : Gang} {J : Job} {later : List Job} {B : Beat}

theorem State.Active.passReady_send (h : s.Active g G J later B) (hdir : J.dir = .send) :
    s.passReady g = (s.drive g).setPhase g .settle := by
  rw [State.passReady, State.withActive_eq h, hdir]
  rfl

theorem State.Active.passReady_capture (h : s.Active g G J later B) (hdir : J.dir = .capture) :
    s.passReady g = s.setGang g (some { G with ctl := true, beat := some { B with phase := some .waitTake } }) := by
  rw [State.passReady, State.withActive_eq h, hdir, ← h.setCtl_setPhase]

theorem State.Active.periodStart (h : s.Active g G J later B) :
    s.periodStart g =
      match J.dir with
      | .send =>
        ((s.setGang g (some { G with beat := some { B with periodTimer := .running G.time.period } })).drive g).setPhase g
          .settle
      | .capture =>
        s.setGang g (some
          { G with
            ctl := true
            beat := some { B with periodTimer := .running G.time.period, phase := some .pulse } }) := by
  rw [State.periodStart, State.withActive_eq h, h.modBeat]
  cases J.dir with
  | send => rfl
  | capture => simp

theorem State.Active.tryBegin (h : s.Active g G J later B) :
    s.tryBegin g =
      if J.state = .running ∧ G.run = .running ∧ B.inFlight = false ∧ (J.dir = .capture ∨ s.heldOff G = false) then
        (s.setGang g (some
          { G with
            beat := some
              { B with
                inFlight := true, sampled := false, abandoned := false, toggled := false
                beatTimer := if G.time.timeout = 0 then .stopped else .running G.time.timeout } })).enterFirst g
      else s := by
  rw [State.tryBegin, State.withActive_eq h]
  refine if_congr ?_ ?_ rfl
  · simp [State.beatDue, and_assoc]
  · rw [State.beginBeat, State.withActive_eq h, h.modBeat]
    rfl

end

/-- Settles O54, mode by mode. -/
theorem beatsBeginAtTheirFirstStep : Obligations.BeatsBeginAtTheirFirstStep := by
  intro s g G J later B h reaching driven asking timed
  have hphase (p : Phase) : s.setPhase g p = reaching p := h.setPhase p
  refine ⟨h.tryBegin, h.periodStart, fun hm hd => ?_, fun hm hd => ?_, fun hm hd => ?_, fun hm hd => ?_, fun hm hd => ?_,
    fun hm hd => ?_, fun hm hd => ?_, fun hm hd => ?_⟩
  all_goals simp only [State.enterFirst, State.withActive_eq h, hm, hd]
  · rw [hphase, h.passReady_send hd]
  · rw [hphase, h.passReady_capture hd]
  · rw [hphase, State.driveAndSettle]
  · rw [hphase, apply_ite reaching]
  · rw [hphase, h.passReady_send hd]
  · rw [hphase]
  · rw [hphase]
    exact if_congr (by simp) rfl rfl

/-! ## Completion -/

/-- Settles O55, along R82. -/
theorem completionAdvancesTheBeat : Obligations.CompletionAdvancesTheBeat := by
  intro s g G J later B h rep done next
  have hdone : countAtCompletion J B = done := by
    unfold countAtCompletion
    cases hdir : J.dir <;> simp [done, hdir]
  have hnext : B.next J = next := by rw [Beat.next, hdone]
  rw [State.completeBeat, State.withActive_eq h]
  dsimp only
  rw [h.modBeat, hnext]
  refine if_congr Iff.rfl ?_ ?_
  · rw [State.setGang_setCtl]
  · cases G.run with
    | running | paused => rfl
    | pausing =>
      dsimp only
      rw [State.setGang_modGang, State.setGang_setJobState, h.2.1]

/-! ## The ends of the timed steps -/

/-- A row that acts on no active job that the gang has changes nothing. -/
theorem State.withActive_same {s : State} {g : GangId} {f : Gang → Job → Beat → State}
    (h : ∀ (G : Gang) (J : Job) (later : List Job) (B : Beat), s.Active g G J later B → f G J B = s) :
    s.withActive g f = s := by
  refine withActive_cases (P := fun t => t = s) rfl fun G J later B hactive => ?_
  exact h G J later B hactive

theorem settleDue_iff (G : Gang) (J : Job) (B : Beat) :
    settleDue G J B = true ↔
      B.inFlight = true ∧ B.abandoned = false ∧
        if G.cfg.mode = .clocked ∧ J.dir = .capture then
          B.sampled = false ∧ (B.phase = some .settle ∨ (B.phase = some .pulse ∧ G.time.settle ≤ G.time.pulse))
        else B.phase = some .settle := by
  simp only [settleDue, Bool.and_eq_true, Bool.not_eq_true', and_assoc]
  refine and_congr Iff.rfl (and_congr Iff.rfl ?_)
  split_ifs
  · simp [clockedSampleDue]
  · simp

theorem State.Active.exec_settleEnd {s : State} {g : GangId} {G : Gang} {J : Job} {later : List Job} {B : Beat}
    (h : s.Active g G J later B) (hmode : s.mode = .ready) (board : Board) :
    exec (.settleEnd g board) s = .next (if settleDue G J B then (s.senseBoard board).settleDone g else s) := by
  rw [Machine.exec_settleEnd, execSettleEnd, if_pos (State.ready_of hmode), State.withActive_eq h]

/-- Settles O58, mode by mode. -/
theorem settleEndTakesTheNextStep : Obligations.SettleEndTakesTheNextStep := by
  refine ⟨fun s g board G J later B hmode h hflight hgoes => ?_, fun s g board hidle => ?_⟩
  · intro seen reaching
    have hseen : seen.Active g G J later B := h
    have hexec := h.exec_settleEnd hmode board
    refine ⟨fun hphase => ?_, fun hphase hm hd hsampled htime => ?_⟩
    · have hdue (hsampled : G.cfg.mode = .clocked → J.dir = .capture → B.sampled = false) :
          exec (.settleEnd g board) s = .next (seen.settleDone g) := by
        rw [hexec, if_pos]
        refine (settleDue_iff ..).2 ⟨hflight, hgoes, ?_⟩
        split_ifs with hclocked
        · exact ⟨hsampled hclocked.1 hclocked.2, .inl hphase⟩
        · exact hphase
      refine ⟨fun hm hd => ?_, fun hm hd => ?_, fun hm hd => ?_, fun hm hd => ?_, fun hm hd => ?_,
        fun hm hd hsampled => ?_⟩
      · rw [hdue (by simp [hm]), State.settleDone, State.withActive_eq hseen, hm, hd]
        dsimp only
        rw [State.senseBoard_flg, hseen.setCtl, hseen.setCtl_setPhase]
      · rw [hdue (by simp [hm]), State.settleDone, State.withActive_eq hseen, hm, hd]
        rfl
      · rw [hdue (by simp [hm]), State.settleDone, State.withActive_eq hseen, hm, hd]
        dsimp only
        rw [State.senseBoard_flg, hseen.setCtl, State.setGang_modBeat, State.setGang_setPhase, h.2.2]
        rfl
      · rw [hdue (by simp [hm]), State.settleDone, State.withActive_eq hseen, hm, hd]
        rfl
      · rw [hdue (by simp [hd]), State.settleDone, State.withActive_eq hseen, hd]
        rcases hm with hm | hm
        · rw [hm]
          exact congrArg _ (hseen.setCtl_setPhase true .pulse)
        · rw [hm]
          exact congrArg _ (hseen.setCtl_setPhase true .pulse)
      · rw [hdue fun _ _ => hsampled, State.settleDone, State.withActive_eq hseen, hm, hd]
        exact congrArg _ (if_pos hphase)
    · have hdue : settleDue G J B = true := by
        refine (settleDue_iff ..).2 ⟨hflight, hgoes, ?_⟩
        rw [if_pos ⟨hm, hd⟩]
        exact ⟨hsampled, .inr ⟨hphase, htime⟩⟩
      rw [hexec, if_pos hdue, State.settleDone, State.withActive_eq hseen, hm, hd]
      exact congrArg _ (if_neg (by simp [hphase]))
  · rw [exec_settleEnd, execSettleEnd]
    refine congrArg _ ?_
    rcases hidle with hmode | hidle
    · exact if_neg (mt s.ready_iff.1 hmode)
    · split_ifs
      · refine State.withActive_same fun G J later B h => if_neg fun hdue => ?_
        obtain ⟨hflight, hgoes, hphase⟩ := (settleDue_iff ..).1 hdue
        rcases hidle G J later B h with hx | hx | ⟨hx, hy⟩ | ⟨hx, hy⟩
        · simp [hx] at hflight
        · simp [hx] at hgoes
        · split_ifs at hphase <;> simp_all
        · split_ifs at hphase with hclocked
          · obtain ⟨hm, hd⟩ := hclocked
            simp_all
            omega
          · simp_all
      · rfl

theorem State.Active.exec_pulseEnd {s : State} {g : GangId} {G : Gang} {J : Job} {later : List Job} {B : Beat}
    (h : s.Active g G J later B) (hmode : s.mode = .ready) (hflight : B.inFlight = true) (hgoes : B.abandoned = false)
    (hphase : B.phase = some .pulse) :
    exec (.pulseEnd g) s = .next
      (match G.cfg.mode, J.dir with
      | .strobed, _ => (s.setCtl g false).completeBeat g
      | .clocked, .send =>
        if pulseOutlasts G then (s.setCtl g false).completeBeat g else (s.setCtl g false).setPhase g .period
      | .clocked, .capture =>
        if B.sampled then (s.setCtl g false).setPhase g .period
        else if G.time.pulse ≤ G.time.settle then (s.setCtl g false).setPhase g .settle
        else s
      | _, _ => s) := by
  rw [Machine.exec_pulseEnd, execPulseEnd, if_pos (State.ready_of hmode), State.pulseDone, State.withActive_eq h,
    if_pos (by simp [hflight, hgoes, hphase])] <;> rfl

/-- Settles O59, by the phase of the beat. -/
theorem pulseAndPeriodEnd : Obligations.PulseAndPeriodEnd := by
  refine ⟨fun s g G J later B hmode h hflight hgoes => ?_, fun s g hidle => ?_, fun s g hidle => ?_⟩
  · intro lowered reaching
    have hctl : s.setCtl g false = lowered := h.setCtl false
    have hreach (p : Phase) : (s.setCtl g false).setPhase g p = reaching p := h.setCtl_setPhase false p
    refine ⟨fun hphase => ?_, fun hphase htimer => ?_, fun hphase htimer hd hlong => ?_⟩
    · have hexec := h.exec_pulseEnd hmode hflight hgoes hphase
      refine ⟨fun hm => ?_, fun hm hd => ?_, fun hm hd hs => ?_, fun hm hd hs ht => ?_, fun hm hd hs ht => ?_⟩
      · rw [hexec, hm, ← hctl]
      · rw [hexec, hm, hd, ← hreach, ← hctl]
        exact congrArg _ (if_congr (by simp [pulseOutlasts]) rfl rfl)
      · rw [hexec, hm, hd, ← hreach]
        exact congrArg _ (if_pos hs)
      · rw [hexec, hm, hd, ← hreach]
        exact congrArg _ ((if_neg (by simp [hs])).trans (if_pos ht))
      · rw [hexec, hm, hd]
        exact congrArg _ ((if_neg (by simp [hs])).trans (if_neg (by omega)))
    · rw [exec_periodEnd, execPeriodEnd, if_pos (State.ready_of hmode), State.periodDone, State.withActive_eq h,
        if_pos (by simp [hflight, hgoes, htimer]), if_pos hphase]
    · rw [exec_periodEnd, execPeriodEnd, if_pos (State.ready_of hmode), State.periodDone, State.withActive_eq h,
        if_pos (by simp [hflight, hgoes, htimer]), if_neg (by simp [hphase]),
        if_pos ⟨hphase, hd, by simpa [pulseOutlasts] using hlong⟩, h.modBeat]
  · rw [exec_pulseEnd, execPulseEnd]
    refine congrArg _ ?_
    rcases hidle with hmode | hidle
    · exact if_neg (mt s.ready_iff.1 hmode)
    · split_ifs
      · refine State.withActive_same fun G J later B h => if_neg ?_
        rcases hidle G J later B h with hx | hx | hx <;> simp [hx]
      · rfl
  · rw [exec_periodEnd, execPeriodEnd]
    refine congrArg _ ?_
    rcases hidle with hmode | hidle
    · exact if_neg (mt s.ready_iff.1 hmode)
    · split_ifs
      · refine State.withActive_same fun G J later B h => ?_
        rcases hidle G J later B h with hx | hx | hx | ⟨hx, hy⟩
        · exact if_neg (by simp [hx])
        · exact if_neg (by simp [hx])
        · exact if_neg (by simp [hx, Timer.isRunning])
        · split_ifs <;> simp_all
      · rfl

end Sys2Proof.Machine
end

section
/-! PROOFS. The events at the lane pins: a change of FLG (R76, R80, R93) and of HOLD (R103, R105, R106). -/

namespace Sys2Proof.Machine

/-! ## FLG -/

/-- The pins once a FLG level has moved and the board's levels are read. -/
theorem State.flgPin_sensed (s : State) (i : LaneId) (high : Bool) (board : Board) (j : LaneId) :
    ((s.setFlgPin i high).senseBoard board).pins[j] =
      ⟨board[j], if j = i then high else s.pins[j].flg, s.pins[j].hold⟩ := by
  by_cases h : j = i
  · subst h
    simp [State.senseBoard, State.setFlgPin, List.getD, j.isLt]
  · have hne : i.val ≠ j.val := fun hv => h (Fin.ext hv.symm)
    simp [State.senseBoard, State.setFlgPin, List.getD, j.isLt, Vector.getElem_set_ne, hne, h]

/-- A change of a lane's FLG pin that is no gang's first lane, or on a part that is not ready, is recorded alone. -/
theorem State.flgSeen_other {s : State} {i : LaneId}
    (h : ∀ (g : GangId) (G : Gang), s.lanes[i].gang = some g → s.gang g = some G → G.first ≠ i) : s.flgSeen i = s := by
  unfold State.flgSeen State.gangOfLane
  cases hlane : s.lanes[i].gang with
  | none => rfl
  | some g =>
    cases hG : s.gang g with
    | none =>
      have hslot : s.gangs[g] = none := hG
      rw [Option.bind_some, hslot]
      rfl
    | some G =>
      have hslot : s.gangs[g] = some G := hG
      rw [Option.bind_some, hslot]
      exact if_neg (h g G hlane hG)

theorem State.flgSeen_first {s : State} {i : LaneId} {g : GangId} {G : Gang} (hlane : s.lanes[i].gang = some g)
    (hG : s.gang g = some G) (hfirst : G.first = i) :
    s.flgSeen i = if G.cfg.mode = .manual then s.watchFlg g (s.flg G) else s.flgMoved g (s.flg G) := by
  rw [State.flgSeen, State.gangOfLane_of hlane hG]
  exact if_pos hfirst

theorem exec_flgChange_moved {s : State} {i : LaneId} {high : Bool} (h : s.pins[i].flg ≠ high) (board : Board) :
    exec (.flgChange i high board) s = .next
      (if s.ready then ((s.setFlgPin i high).senseBoard board).flgSeen i
      else (s.setFlgPin i high).senseBoard board) := by
  rw [exec_flgChange, execFlgChange, if_neg h]

theorem State.watchFlg_eq {s : State} {g : GangId} {G : Gang} (hG : s.gang g = some G) (f : Bool) :
    s.watchFlg g f =
      if G.cfg.watch = true ∧ f ≠ G.watched then
        (s.setGang g (some { G with watched := f })).notifyEdge G.owner g f
      else s := by
  unfold State.watchFlg
  rw [hG]
  dsimp only
  rw [State.modGang_eq hG]
  exact if_congr (by simp) rfl rfl

section
variable {s : State} {g : GangId} {G : Gang} {J : Job} {later : List Job} {B : Beat}

/-- The change is tested against a beat in flight that hold-off has not abandoned (R80, R105). -/
theorem State.Active.flgMoved_idle (h : s.Active g G J later B) (hidle : B.inFlight = false ∨ B.abandoned = true)
    (f : Bool) : s.flgMoved g f = s := by
  rw [State.flgMoved, State.withActive_eq h]
  refine if_neg ?_
  rcases hidle with hx | hx <;> simp [hx]

/-- The active job faults with the phase its beat has reached (R125). -/
theorem State.Active.faultJob (h : s.Active g G J later B) (reason : FaultReason) :
    s.faultJob g reason =
      (s.setGang g (some { G with ctl := false })).departHead g .faulted
        (some (.jobFault J.id g reason (B.phase.getD .waitReady) B.done)) := by
  rw [State.faultJob, State.withActive_eq h, h.setCtl]

end

/-- Settles O56: who sees the change, and then what each phase makes of it. -/
theorem flgChangeIsWatchedOrTested : Obligations.FlgChangeIsWatchedOrTested := by
  intro s i high board seen
  have hpins : ∀ j : LaneId, seen.pins[j] = ⟨board[j], if j = i then high else s.pins[j].flg, s.pins[j].hold⟩ :=
    s.flgPin_sensed i high board
  refine ⟨fun hsame => congrArg Host.Outcome.next (if_pos hsame), fun hmoved => ⟨fun hother => ?_, ?_⟩, hpins, rfl⟩
  · rw [exec_flgChange_moved hmoved]
    refine congrArg _ ?_
    rcases hother with hmode | hother
    · exact if_neg (mt s.ready_iff.1 hmode)
    · rw [State.flgSeen_other (s := seen) hother]
      exact ite_self _
  · intro g G hmode hlane hG hfirst f
    have hflg : seen.flg G = f := by
      rw [State.flg, hpins, if_pos hfirst]
    have hexec : exec (.flgChange i high board) s = .next
        (if G.cfg.mode = .manual then seen.watchFlg g f else seen.flgMoved g f) := by
      rw [exec_flgChange_moved hmoved, if_pos (State.ready_of hmode), State.flgSeen_first (s := seen) hlane hG hfirst,
        hflg]
    refine ⟨fun hm => ?_, fun hm hidle => ?_, fun J later B hm h hflight hgoes => ?_⟩
    · rw [hexec, if_pos hm, State.watchFlg_eq (s := seen) hG]
    · rw [hexec, if_neg hm]
      refine congrArg _ (State.withActive_same fun G' J later B h => ?_)
      have hG' : G' = G := Option.some.inj (h.1.symm.trans hG)
      subst hG'
      exact (State.withActive_eq h _).symm.trans (State.Active.flgMoved_idle h (hidle J later B h) f)
    · intro reaching
      have hseen : seen.Active g G J later B := h
      have hreach (p : Phase) : seen.setPhase g p = reaching G.ctl p := hseen.setPhase p
      rw [hexec, if_neg hm, State.flgMoved, State.withActive_eq hseen, if_pos (by simp [hflight, hgoes])]
      refine congrArg _ ?_
      cases hphase : B.phase with
      | none => rfl
      | some p =>
        cases p with
        | waitReady =>
          cases hd : J.dir with
          | send => exact if_congr Iff.rfl rfl (hseen.passReady_send hd)
          | capture => exact if_congr Iff.rfl rfl (hseen.passReady_capture hd)
        | waitTake =>
          cases J.dir with
          | send => exact if_congr Iff.rfl (by rw [hseen.setCtl]) rfl
          | capture => exact if_congr Iff.rfl (hreach _) rfl
        | waitMatch =>
          have hmatch : (if f = G.ctl then if B.toggled then seen.completeBeat g else seen.driveAndSettle g else seen) =
              if f ≠ G.ctl then seen
              else if B.toggled then seen.completeBeat g else (seen.drive g).setPhase g .settle := by
            rw [ite_not]
            rfl
          cases J.dir <;> exact hmatch
        | waitToggle =>
          have htoggle : (if f = G.ctl then seen else seen.setPhase g .settle) =
              if f ≠ G.ctl then reaching G.ctl .settle else seen := by
            rw [ite_not, hreach]
          cases J.dir <;> exact htoggle
        | waitStrobe => cases J.dir <;> rfl
        | waitGate => cases J.dir <;> rfl
        | settle => cases J.dir <;> rfl
        | period => cases J.dir <;> rfl
        | pulse =>
          cases hd : J.dir with
          | send => exact if_neg (by simp)
          | capture =>
            refine if_congr (by simp) ?_ rfl
            rw [hseen.faultJob, hphase]
            rfl

/-! ## HOLD -/

theorem exec_holdChange_moved {s : State} {i : LaneId} {high : Bool} (h : s.pins[i].hold ≠ high) :
    exec (.holdChange i high) s = .next
      (if s.ready then (s.setHoldPin i high).holdSeen i s else s.setHoldPin i high) := by
  rw [exec_holdChange, execHoldChange, if_neg h]

/-- What the lane's gang does by how its hold-off has changed (R103). -/
theorem State.holdSeen_eq {s : State} {i : LaneId} {g : GangId} {G : Gang} (hlane : s.lanes[i].gang = some g)
    (hG : s.gang g = some G) (before : State) :
    s.holdSeen i before =
      if s.heldOff G && !before.heldOff G then s.holdBegin g
      else if before.heldOff G && !s.heldOff G then s.holdEnd g
      else s := by
  rw [State.holdSeen, State.gangOfLane_of hlane hG]

section
variable {s : State} {g : GangId} {G : Gang} {J : Job} {later : List Job} {B : Beat}

theorem State.holdBegin_eq (hG : s.gang g = some G) : s.holdBegin g = (s.setDrivers G false).abandonBeat g := by
  rw [State.holdBegin, hG]

/-- A SEND beat in flight is abandoned with CTL as at its beginning (R105). -/
theorem State.Active.abandonBeat (h : s.Active g G J later B) (hdir : J.dir = .send) (hflight : B.inFlight = true)
    (hgoes : B.abandoned = false) :
    s.abandonBeat g = s.setGang g (some
      { G with
        ctl := if G.cfg.mode = .answered then G.ctl ^^ B.toggled else false
        beat := some { B with abandoned := true, toggled := false, periodTimer := .stopped } }) := by
  rw [State.abandonBeat, State.withActive_eq h, if_pos (by simp [hdir, hflight, hgoes]), State.modGang_eq h.1,
    State.setGang_modBeat, h.2.2]
  rfl

theorem State.abandonBeat_same
    (h : ∀ (G : Gang) (J : Job) (later : List Job) (B : Beat), s.Active g G J later B →
      J.dir = .capture ∨ B.inFlight = false ∨ B.abandoned = true) : s.abandonBeat g = s := by
  refine State.withActive_same fun G J later B hactive => if_neg ?_
  rcases h G J later B hactive with hx | hx | hx <;> simp [hx]

theorem State.holdEnd_idle (hG : s.gang g = some G) (hqueue : G.queue = []) :
    s.holdEnd g = if (G.cfg.mode = .manual ∧ G.cfg.manualOut = true) ∨ G.restDrive = true then s.setDrivers G true else s := by
  rw [State.holdEnd, hG]
  dsimp only
  rw [hqueue]
  exact if_congr (by simp [Gang.continuous]) rfl rfl

theorem State.Active.holdEnd (h : s.Active g G J later B) :
    s.holdEnd g =
      if J.dir = .send then
        if B.inFlight && B.abandoned then
          (s.modBeat g fun B => { B with abandoned := false, toggled := false }).enterFirst g
        else s.tryBegin g
      else s := by
  rw [State.holdEnd, h.1]
  dsimp only
  rw [h.2.1, h.2.2]

end

/-- Settles O57: how hold-off changes, and then what the gang's engine does. -/
theorem holdChangeAbandonsAndRestarts : Obligations.HoldChangeAbandonsAndRestarts := by
  intro s i high seen
  refine ⟨fun hsame => congrArg Host.Outcome.next (if_pos hsame), fun hmoved => ⟨fun hother => ?_, ?_⟩,
    State.setDrivers_lane s⟩
  · rw [exec_holdChange_moved hmoved]
    refine congrArg _ ?_
    rcases hother with hmode | hfree
    · exact if_neg (mt s.ready_iff.1 hmode)
    · rw [State.holdSeen, State.gangOfLane_free (s := s.setHoldPin i high) hfree]
      exact ite_self _
  · intro g G hmode hlane hG
    have hexec : exec (.holdChange i high) s = .next
        (if seen.heldOff G && !s.heldOff G then seen.holdBegin g
        else if s.heldOff G && !seen.heldOff G then seen.holdEnd g
        else seen) := by
      rw [exec_holdChange_moved hmoved, if_pos (State.ready_of hmode), State.holdSeen_eq (s := s.setHoldPin i high) hlane hG]
      rfl
    have hslot : seen.gang g = some G := hG
    refine ⟨fun hsame => ?_, fun hbefore hafter => ?_, fun hbefore hafter => ?_⟩
    · rw [hexec, hsame, Bool.and_not_self]
      rfl
    · rw [hbefore, hafter] at hexec
      have hbegins : exec (.holdChange i high) s = .next ((seen.setDrivers G false).abandonBeat g) :=
        hexec.trans (congrArg _ (State.holdBegin_eq hslot))
      refine ⟨fun J later B h hd hflight hgoes => ?_, fun hidle => ?_⟩
      · exact hbegins.trans (congrArg _
          (State.Active.abandonBeat (s := seen.setDrivers G false) (later := later) h hd hflight hgoes))
      · refine hbegins.trans (congrArg _ (State.abandonBeat_same fun G' J later B h => ?_))
        have hG' : G' = G := Option.some.inj (h.1.symm.trans hG)
        subst hG'
        exact hidle J later B h
    · rw [hbefore, hafter] at hexec
      have hends : exec (.holdChange i high) s = .next (seen.holdEnd g) := hexec
      refine ⟨fun hqueue => ?_, fun J later B h => ?_⟩
      · rw [hends, State.holdEnd_idle hslot hqueue]
      · have hseen : seen.Active g G J later B := h
        rw [hseen.holdEnd] at hends
        refine ⟨fun hd => ?_, fun hd hflight hgone => ?_, fun hd hflight => ?_⟩
        · rw [hends, if_neg (by simp [hd])]
        · rw [hends, if_pos hd, if_pos (by simp [hflight, hgone]), hseen.modBeat]
        · rw [hends, if_pos hd, if_neg (by simp [hflight])]

end Sys2Proof.Machine
end

section
/-! PROOFS. The directory as DESCRIBE and CATALOG report it (R15, R16), the pack unit's visits and moves (R41-R45), and block
access control: activation, grants and grant evaluations (R27-R30, R122). -/

namespace Sys2Proof.Machine

theorem exec_describe (x : LinkId) (s : State) : exec (.describe x) s = execDescribe x s := by rfl

theorem exec_catalog (x : LinkId) (s : State) : exec (.catalog x) s = execCatalog x s := by rfl

theorem exec_packVisit (s : State) : exec .packVisit s = execPackVisit s := by rfl

theorem exec_moveCompletion (s : State) : exec .moveCompletion s = execMoveCompletion s := by rfl

/-! ## DESCRIBE and CATALOG -/

theorem State.resolve_iff (s : State) (slot : Nat) (gen : Byte) (i : SlotId) (b : Block) :
    s.resolve slot gen = some (i, b) ↔ slot = i.val ∧ s.dir[i].gen = gen ∧ s.block i = some b := by
  constructor
  · intro h
    unfold State.resolve at h
    split_ifs at h with hslot hgen
    obtain ⟨c, hc, heq⟩ := Option.map_eq_some_iff.1 h
    cases heq
    exact ⟨rfl, hgen, hc⟩
  · rintro ⟨rfl, hgen, hb⟩
    unfold State.resolve
    rw [dif_pos i.isLt]
    exact (if_pos hgen).trans (Option.map_eq_some_iff.2 ⟨b, hb, rfl⟩)

theorem baseField_eq (o : Option Nat) : baseField o = u16 (o.getD 0xFFFF) := by cases o <;> rfl

theorem gangField_eq (o : Option GangId) : gangField o = u8 ((o.map Fin.val).getD 0xFF) := by cases o <;> rfl

theorem Waiter.field_eq (w : Waiter) :
    w.field = u16 w.job ++ u8 w.gang.val ++ [if w.write then 1#8 else 0#8] := by
  rw [Waiter.field, flagByte_eq]

@[simp] theorem State.popped_describeFields (s : State) (x : LinkId) (rest : List Request) (i : SlotId) (b : Block) :
    (s.popped x rest).describeFields i b = s.describeFields i b := by
  cases x <;> rfl

theorem State.popped_blocksByBase (s : State) (x : LinkId) (rest : List Request) :
    (s.popped x rest).blocksByBase = s.blocksByBase := by
  cases x <;> rfl

theorem State.popped_catalogEntry (s : State) (x : LinkId) (rest : List Request) :
    (s.popped x rest).catalogEntry = s.catalogEntry := by
  cases x <;> rfl

theorem insertByBase_perm (e : SlotId × Block) (l : List (SlotId × Block)) : (insertByBase e l).Perm (e :: l) := by
  induction l with
  | nil => exact .refl _
  | cons x xs ih =>
    unfold insertByBase
    split_ifs
    · exact .refl _
    · exact (ih.cons x).trans (.swap e x xs)

theorem insertByBase_sorted (e : SlotId × Block) {l : List (SlotId × Block)}
    (h : l.Pairwise fun a b => a.2.base ≤ b.2.base) : (insertByBase e l).Pairwise fun a b => a.2.base ≤ b.2.base := by
  induction l with
  | nil => exact List.pairwise_singleton _ _
  | cons x xs ih =>
    obtain ⟨hx, hxs⟩ := List.pairwise_cons.1 h
    unfold insertByBase
    split_ifs with hle
    · refine List.pairwise_cons.2 ⟨fun a ha => ?_, h⟩
      rcases List.mem_cons.1 ha with rfl | ha
      · exact hle
      · exact hle.trans (hx a ha)
    · refine List.pairwise_cons.2 ⟨fun a ha => ?_, ih hxs⟩
      rcases List.mem_cons.1 ((insertByBase_perm e xs).mem_iff.1 ha) with rfl | ha
      · omega
      · exact hx a ha

theorem State.blocksByBase_perm (s : State) : s.blocksByBase.Perm s.blocks := by
  unfold State.blocksByBase
  induction s.blocks with
  | nil => exact .refl _
  | cons e l ih => exact (insertByBase_perm e _).trans (ih.cons e)

theorem State.blocksByBase_sorted (s : State) : s.blocksByBase.Pairwise fun a b => a.2.base ≤ b.2.base := by
  unfold State.blocksByBase
  induction s.blocks with
  | nil => exact .nil
  | cons e l ih => exact insertByBase_sorted e ih

/-- Settles O24: the order of CATALOG is the sorted directory. -/
theorem describeAndCatalogReportTheDirectory : Obligations.DescribeAndCatalogReportTheDirectory := by
  refine ⟨State.resolve_iff, fun s x r rest slot gen htake hcode hpay => ?_,
    fun s x r rest start htake hcode hpay => ?_⟩
  · rw [exec_describe, execDescribe, State.serve_eq (code := Code.describe) htake hcode (by simp [hpay]), hpay,
      State.popped_resolveAt, State.resolveAt_handle]
    refine congrArg _ ?_
    cases hres : s.resolve slot.toNat gen with
    | none => exact answer_refuse ..
    | some e =>
      obtain ⟨i, b⟩ := e
      obtain ⟨hslot, hgen, -⟩ := (s.resolve_iff ..).1 hres
      dsimp only
      rw [answer_ok_same, State.popped_describeFields, State.describeFields, State.handle, hgen, ← hslot, u8_toNat,
        flagByte_isSome, baseField_eq, gangField_eq, listField, listField, funext Waiter.field_eq]
      rfl
  · have hstart : byteAt r.payload 0 = start.toNat := by rw [hpay]; rfl
    refine ⟨s.blocksByBase, s.blocksByBase_perm, s.blocksByBase_sorted, ?_⟩
    rw [exec_catalog, execCatalog, State.serve_eq (code := Code.catalog) htake hcode (by simp [hpay])]
    refine congrArg _ ?_
    dsimp only
    rw [hstart, State.popped_blocksByBase, s.blocksByBase_perm.length_eq]
    by_cases hpast : s.blocks.length < start.toNat
    · rw [if_pos hpast, if_pos hpast, answer_refuse]
      rfl
    · rw [if_neg hpast, if_neg hpast, answer_ok_same, State.popped_catalogEntry, u8_toNat]
      have hentry : s.catalogEntry = fun e : SlotId × Block =>
          u8 e.1.val ++ [s.dir[e.1].gen] ++ (u8 e.2.name.length ++ e.2.name) ++ u32 e.2.size ++ u16 e.2.base ++
            u16 ((e.2.size + 63) / 64) ++ [if e.2.dest = none then 0#8 else 1#8] := by
        funext e
        rw [State.catalogEntry, flagByte_isSome]
        rfl
      rw [listField, hentry]
      rfl

/-! ## Visits -/

/-- A visit that finds no block at or above the cursor (R41). -/
theorem State.visitChoice_none {s : State} (h : ∀ (i : SlotId) (b : Block), s.block i = some b → b.base < s.pack.cursor) :
    s.visitChoice = none := by
  refine List.find?_eq_none.2 fun e he => ?_
  have := h e.1 e.2 (State.mem_blocksByBase.1 he)
  simp only [decide_eq_true_eq]
  omega

/-- The block that a visit chooses has the lowest base at or above the cursor (R41). -/
theorem State.visitChoice_lowest {s : State} {i : SlotId} {b : Block} (hb : s.block i = some b)
    (hcursor : s.pack.cursor ≤ b.base)
    (hlowest : ∀ (j : SlotId) (c : Block), s.block j = some c → s.pack.cursor ≤ c.base → j ≠ i → b.base < c.base) :
    s.visitChoice = some (i, b) := by
  have hmem : (i, b) ∈ s.blocksByBase := State.mem_blocksByBase.2 hb
  cases hchoice : s.visitChoice with
  | none =>
    have := List.find?_eq_none.1 hchoice _ hmem
    simp only [decide_eq_true_eq] at this
    exact absurd hcursor this
  | some e =>
    obtain ⟨hdue, below, above, hsplit, hbelow⟩ := List.find?_eq_some_iff_append.1 hchoice
    obtain ⟨j, c⟩ := e
    simp only [decide_eq_true_eq] at hdue
    have hc : s.block j = some c :=
      State.mem_blocksByBase.1 (hsplit ▸ List.mem_append_right _ List.mem_cons_self)
    have hle : c.base ≤ b.base := by
      have hsorted := hsplit ▸ s.blocksByBase_sorted
      rcases List.mem_append.1 (hsplit ▸ hmem) with hin | hin
      · have := hbelow _ hin
        simp only [Bool.not_eq_true', decide_eq_false_iff_not] at this
        exact absurd hcursor this
      · rcases List.mem_cons.1 hin with heq | hin
        · exact (congrArg (fun e => e.2.base) heq).ge
        · exact List.rel_of_pairwise_cons (List.pairwise_append.1 hsorted).2.1 hin
    by_cases hij : j = i
    · subst hij
      rw [Option.some.inj (hc.symm.trans hb)]
    · have := hlowest j c hc hdue hij
      omega

theorem extentBelow_none {base : Nat} {l : List Extent} (h : ∀ e ∈ l, e.base + e.count ≠ base) :
    extentBelow base l = none :=
  List.find?_eq_none.2 fun e he => by simpa using h e he

/-- In a sound free list one extent at most ends directly below a base (R6). -/
theorem extentBelow_some {base : Nat} {l : List Extent} (hsound : FreeListSound l) {e : Extent} (he : e ∈ l)
    (hend : e.base + e.count = base) : extentBelow base l = some e := by
  obtain ⟨hsorted, hcount⟩ := hsound
  cases hfound : extentBelow base l with
  | none =>
    have := List.find?_eq_none.1 hfound e he
    simp [hend] at this
  | some f =>
    obtain ⟨hdue, below, above, rfl, hbelow⟩ := List.find?_eq_some_iff_append.1 hfound
    simp only [beq_iff_eq] at hdue
    rcases List.mem_append.1 he with hin | hin
    · have := hbelow e hin
      simp [hend] at this
    · rcases List.mem_cons.1 hin with rfl | hin
      · rfl
      · have hlt := List.rel_of_pairwise_cons (List.pairwise_append.1 hsorted).2.1 hin
        have := hcount e he
        omega

theorem exec_packVisit_chosen {s : State} (hmode : s.mode = .ready) (hrun : s.pack.state = .running)
    (hmove : s.pack.move = none) {i : SlotId} {b : Block} (hchoice : s.visitChoice = some (i, b)) :
    exec .packVisit s = .next (s.visitBlock i b) := by
  rw [exec_packVisit, execPackVisit, if_pos (by simp [State.ready_of hmode, hrun, hmove]), hchoice]

theorem Block.held_iff (b : Block) : b.held = true ↔ ¬(b.readers = [] ∧ b.writer = none) := by
  rw [Block.held]
  cases b.writer <;> cases b.readers <;> simp

/-- Settles O29, along R41 to R43. -/
theorem packVisitStaysMovesOrEnds : Obligations.PackVisitStaysMovesOrEnds := by
  refine ⟨fun s hmode hrun hmove => ⟨fun hnone y hlink => ?_, fun i b hb hcursor hlowest => ?_⟩, fun s hidle => ?_⟩
  · rw [exec_packVisit, execPackVisit, if_pos (by simp [State.ready_of hmode, hrun, hmove]),
      State.visitChoice_none hnone]
    exact congrArg _ (State.endPack_of_link hlink false)
  · have hexec := exec_packVisit_chosen hmode hrun hmove (State.visitChoice_lowest hb hcursor hlowest)
    refine ⟨fun hstays => ?_, fun e he hend hsound => ?_⟩
    · rw [hexec, State.visitBlock, extentBelow_none hstays]
      rfl
    · rw [hexec, State.visitBlock, extentBelow_some hsound he hend]
      refine congrArg _ ?_
      dsimp only
      by_cases hfree : b.readers = [] ∧ b.writer = none
      · rw [if_pos hfree, if_neg (fun h => b.held_iff.1 h hfree), State.startMove, State.modBlock, hb]
        rfl
      · rw [if_neg hfree, if_pos (b.held_iff.2 hfree)]
        rfl
  · rw [exec_packVisit, execPackVisit, if_neg]
    rcases hidle with hmode | hrun | hmove
    · simp [mt s.ready_iff.1 hmode]
    · simp [hrun]
    · simp [hmove]

/-! ## The completion of a move -/

/-- What a completion sets, field by field (R44, R45). -/
theorem State.finishMove_eq {s : State} {m : Move} {b : Block} (hb : s.block m.slot = some b) :
    s.finishMove m =
      { s with
        dir := s.dir.set m.slot ⟨s.dir[m.slot].gen, some { b with base := m.dst, dest := none }⟩
        store := s.store.copy (64 * m.src) (64 * m.dst) (64 * m.granules)
        free := giveBack ⟨m.dst + m.granules, m.src - m.dst⟩ s.free
        pack := { s.pack with move := none, moves := s.pack.moves + 1 } } := by
  rw [State.finishMove, State.modBlock, hb]
  rfl

/-- Settles O30: the copy byte by byte, and the end of a STOPPING pack behind the evaluation. -/
theorem moveCompletionRelocatesTheBlock : Obligations.MoveCompletionRelocatesTheBlock := by
  refine ⟨fun s m b hmode hm hb hsrc hdst => ?_, fun s hidle => ?_⟩
  · refine ⟨s.store.copy (64 * m.src) (64 * m.dst) (64 * m.granules), fun k hk => ?_, fun a ha => ?_, ?_⟩
    · refine Mem.get_copy_inside _ _ _ _ hk ?_ ?_ <;> unfold storeSize <;> omega
    · exact Mem.get_copy_outside _ _ _ _ ha
    · intro moved
      have hmoved : s.finishMove m = moved := State.finishMove_eq hb
      obtain ⟨-, -, hfree, hpack, -⟩ := (moved.onlyWork_evaluate m.slot).fields
      have hexec : exec .moveCompletion s = .next
          (if (moved.evaluate m.slot).pack.state = .stopping then (moved.evaluate m.slot).endPack true
          else moved.evaluate m.slot) := by
        rw [exec_moveCompletion, execMoveCompletion, if_pos (State.ready_of hmode), hm]
        dsimp only
        rw [hmoved]
      refine ⟨fun hgoes => ?_, fun y hstops hlink => ?_⟩
      · rw [hexec, hpack]
        exact congrArg _ (if_neg hgoes)
      · rw [hexec, hpack, State.endPack_of_link (y := y) (by rw [hpack]; exact hlink), hpack, ← hfree]
        exact congrArg _ (if_pos hstops)
  · rw [exec_moveCompletion, execMoveCompletion]
    refine congrArg _ ?_
    rcases hidle with hmode | hmove
    · exact if_neg (mt s.ready_iff.1 hmode)
    · rw [hmove]
      exact ite_self _

/-! ## Activation and grants -/

theorem Block.grants_iff (b : Block) (dir : Direction) :
    b.grants (dir == .capture) = true ↔
      b.waiters = [] ∧ b.dest = none ∧ b.writer = none ∧ (dir = .send ∨ b.readers = []) := by
  cases dir <;> simp [Block.grants, and_assoc]

/-- The state in which the head of a gang's queue is active and claims its block next (R122). -/
theorem State.activate_eq {s : State} {g : GangId} {G : Gang} (hG : s.gang g = some G) :
    s.activate g = ((s.setDrivers G false).setGang g (some
      { G with ctl := false, restDrive := false, beat := some Beat.init })).claim g := by
  rw [State.activate, hG]
  dsimp only
  rw [State.modGang_eq (s := s.setDrivers G false) hG]

theorem State.modBlock_eq {s : State} {i : SlotId} {b : Block} (h : s.block i = some b) (f : Block → Block) :
    s.modBlock i f = s.setBlock i (some (f b)) := by
  rw [State.modBlock, h]
  rfl

theorem State.handGrant_eq {s : State} {g : GangId} {G : Gang} {J : Job} {later : List Job} (hG : s.gang g = some G)
    (hqueue : G.queue = J :: later) :
    s.handGrant g =
      if G.run = .paused then s.setGang g (some { G with queue := { J with state := .paused } :: later })
      else (s.setGang g (some { G with queue := { J with state := .running } :: later })).tryBegin g := by
  rw [State.handGrant, hG]
  cases hrun : G.run with
  | paused =>
    dsimp only
    rw [if_pos rfl, State.setJobState_eq hG hqueue .paused, hrun]
  | running | pausing =>
    dsimp only
    rw [if_neg (by simp), State.setJobState_eq hG hqueue .running, hrun]

theorem mem_addReader (g : GangId) (l : List GangId) (h : GangId) : h ∈ addReader g l ↔ h = g ∨ h ∈ l := by
  induction l with
  | nil => simp [addReader]
  | cons x xs ih =>
    unfold addReader
    split_ifs with hlt heq
    · exact List.mem_cons
    · subst heq
      simp
    · rw [List.mem_cons, ih, List.mem_cons]
      tauto

theorem addReader_sorted (g : GangId) {l : List GangId} (h : l.Pairwise (· < ·)) :
    (addReader g l).Pairwise (· < ·) := by
  induction l with
  | nil => exact List.pairwise_singleton _ _
  | cons x xs ih =>
    obtain ⟨hx, hxs⟩ := List.pairwise_cons.1 h
    unfold addReader
    split_ifs with hlt heq
    · refine List.pairwise_cons.2 ⟨fun a ha => ?_, h⟩
      rcases List.mem_cons.1 ha with rfl | ha
      · exact hlt
      · exact hlt.trans (hx a ha)
    · exact h
    · refine List.pairwise_cons.2 ⟨fun a ha => ?_, ih hxs⟩
      rcases (mem_addReader g xs a).1 ha with rfl | ha
      · exact lt_of_le_of_ne (not_lt.1 hlt) (Ne.symm heq)
      · exact hx a ha

/-- Settles O31: the claim of an activated job, what a grant does, and the order of the readers. -/
theorem activationClaimsTheBlock : Obligations.ActivationClaimsTheBlock := by
  refine ⟨fun s g G J later b hG hqueue hb => ?_, fun s g G J later hG hqueue => State.handGrant_eq hG hqueue,
    fun g readers hsorted => ⟨addReader_sorted g hsorted, mem_addReader g readers⟩⟩
  intro write G' ready
  have hready : ready.Active g G' J later .init := ⟨State.setGang_gang_self .., hqueue, rfl⟩
  have hblock : ready.block J.slot = some b := hb
  have hclaim : s.activate g =
      if b.grants write then
        (ready.setBlock J.slot (some
          (if write then { b with writer := some g } else { b with readers := addReader g b.readers }))).handGrant g
      else
        (ready.setBlock J.slot (some { b with waiters := b.waiters ++ [⟨J.id, g, write⟩] })).setJobState g .waiting := by
    rw [State.activate_eq hG, State.claim, State.withActive_eq hready, hblock]
    dsimp only
    rw [State.modBlock_eq hblock, State.modBlock_eq hblock]
  refine ⟨fun hw hd hwr hfree => ?_, fun hdenied => ?_⟩
  · rw [hclaim, if_pos ((b.grants_iff J.dir).2 ⟨hw, hd, hwr, hfree⟩)]
  · rw [hclaim, if_neg (mt (b.grants_iff J.dir).1 hdenied)]
    exact State.setJobState_eq (s := ready.setBlock J.slot _) hready.1 hqueue .waiting

/-! ## Grant evaluations -/

theorem State.evaluate_none {s : State} {i : SlotId} {b : Block} (hb : s.block i = some b)
    (h : b.dest ≠ none ∨ b.waiters = []) : s.evaluate i = s := by
  rw [State.evaluate, hb]
  dsimp only
  rcases h with hdest | hwaiters
  · exact if_pos (Option.isSome_iff_ne_none.2 hdest)
  · rw [hwaiters]
    exact ite_self _

theorem State.evaluate_writer {s : State} {i : SlotId} {b : Block} {w : Waiter} {ws : List Waiter}
    (hb : s.block i = some b) (hdest : b.dest = none) (hwaiters : b.waiters = w :: ws) (hwrite : w.write = true) :
    s.evaluate i =
      if b.readers = [] ∧ b.writer = none then
        (s.setBlock i (some { b with writer := some w.gang, waiters := ws })).handGrant w.gang
      else s := by
  rw [State.evaluate, hb]
  dsimp only
  rw [if_neg (by simp [hdest]), hwaiters]
  dsimp only
  rw [if_pos hwrite, State.modBlock_eq hb]
  by_cases hfree : b.readers = [] ∧ b.writer = none
  · rw [if_neg (fun h => b.held_iff.1 h hfree), if_pos hfree]
  · rw [if_pos (b.held_iff.2 hfree), if_neg hfree]

/-- The run of readers at the head of a waiter list, and what is left behind it. -/
theorem readers_run {l granted left : List Waiter} (hsplit : l = granted ++ left)
    (hgranted : ∀ v ∈ granted, v.write = false) (hleft : ∀ v ∈ left.head?, v.write = true) :
    (l.takeWhile fun v => !v.write) = granted ∧ (l.dropWhile fun v => !v.write) = left := by
  subst hsplit
  have hall : ∀ v ∈ granted, (!v.write) = true := fun v hv => by rw [hgranted v hv]; rfl
  cases left with
  | nil =>
    rw [List.append_nil]
    exact ⟨List.takeWhile_eq_self_iff.2 hall, List.dropWhile_eq_nil_iff.2 hall⟩
  | cons v vs =>
    have hv : v.write = true := hleft v rfl
    rw [List.takeWhile_append_of_pos hall, List.dropWhile_append_of_pos hall, List.takeWhile_cons_of_neg (by simp [hv]),
      List.dropWhile_cons_of_neg (by simp [hv]), List.append_nil]
    exact ⟨rfl, rfl⟩

theorem State.evaluate_readers {s : State} {i : SlotId} {b : Block} {w : Waiter} {ws granted left : List Waiter}
    (hb : s.block i = some b) (hdest : b.dest = none) (hwaiters : b.waiters = w :: ws) (hwrite : w.write = false)
    (hsplit : w :: ws = granted ++ left) (hgranted : ∀ v ∈ granted, v.write = false)
    (hleft : ∀ v ∈ left.head?, v.write = true) :
    s.evaluate i =
      if b.writer ≠ none then s
      else
        granted.foldl (fun s v => s.handGrant v.gang)
          (s.setBlock i (some
            { b with
              readers := granted.foldl (fun readers v => addReader v.gang readers) b.readers
              waiters := left })) := by
  obtain ⟨htake, hdrop⟩ := readers_run hsplit hgranted hleft
  rw [State.evaluate, hb]
  dsimp only
  rw [if_neg (by simp [hdest]), hwaiters]
  dsimp only
  rw [if_neg (by simp [hwrite]), htake, hdrop, State.modBlock_eq hb]
  exact if_congr Option.isSome_iff_ne_none rfl rfl

theorem State.handGrants_block (l : List Waiter) (s : State) (i : SlotId) :
    (l.foldl (fun s v => s.handGrant v.gang) s).block i = s.block i := by
  rw [State.block, (State.onlyGangs_handGrants l s).dir, State.block]

/-- A waiter list cut behind its run of readers. -/
theorem exists_readers_run (l : List Waiter) :
    ∃ granted left, l = granted ++ left ∧ (∀ v ∈ granted, v.write = false) ∧ ∀ v ∈ left.head?, v.write = true := by
  refine ⟨l.takeWhile fun v => !v.write, l.dropWhile fun v => !v.write, List.takeWhile_append_dropWhile.symm,
    fun v hv => by simpa using List.mem_takeWhile_imp hv, fun v hv => ?_⟩
  have := List.head?_dropWhile_not (fun v : Waiter => !v.write) l
  simp only [Option.mem_def] at hv
  rw [hv] at this
  simpa using this

theorem addReaders_ne_nil {l : List Waiter} (hl : l ≠ []) (readers : List GangId) :
    l.foldl (fun readers v => addReader v.gang readers) readers ≠ [] := by
  induction l generalizing readers with
  | nil => exact absurd rfl hl
  | cons v vs ih =>
    rw [List.foldl_cons]
    cases vs with
    | nil => exact List.ne_nil_of_mem ((mem_addReader v.gang readers v.gang).2 (.inl rfl))
    | cons u us => exact ih (by simp) _

/-- After a grant evaluation the oldest waiter of a READY block could not be granted (R29). -/
theorem State.evaluate_head (s : State) (i : SlotId) : ∀ b ∈ (s.evaluate i).block i, b.dest = none →
    ∀ w ∈ b.waiters.head?, b.writer.isSome = true ∨ (w.write = true ∧ b.readers ≠ []) := by
  intro c hc hdest w hw
  cases hb : s.block i with
  | none =>
    rw [State.evaluate, hb] at hc
    simp [hb] at hc
  | some b =>
    by_cases hidle : b.dest ≠ none ∨ b.waiters = []
    · rw [State.evaluate_none hb hidle, hb] at hc
      obtain rfl := Option.some.inj hc
      rcases hidle with hmoving | hempty
      · exact absurd hdest hmoving
      · simp [hempty] at hw
    · obtain ⟨hready, hwaits⟩ := not_or.1 hidle
      obtain ⟨v, vs, hwaiters⟩ := List.exists_cons_of_ne_nil hwaits
      cases hwrite : v.write with
      | true =>
        rw [State.evaluate_writer hb (not_not.1 hready) hwaiters hwrite] at hc
        split_ifs at hc with hfree
        · rw [State.handGrant_block, State.setBlock_block_self] at hc
          obtain rfl := Option.some.inj hc
          exact .inl rfl
        · rw [hb] at hc
          obtain rfl := Option.some.inj hc
          rw [hwaiters] at hw
          obtain rfl := Option.some.inj hw
          rcases not_and_or.1 hfree with hreaders | hwriter
          · exact .inr ⟨hwrite, hreaders⟩
          · exact .inl (Option.isSome_iff_ne_none.2 hwriter)
      | false =>
        obtain ⟨granted, left, hsplit, hgranted, hleft⟩ := exists_readers_run (v :: vs)
        rw [State.evaluate_readers hb (not_not.1 hready) hwaiters hwrite hsplit hgranted hleft] at hc
        split_ifs at hc with hwriter
        · rw [hb] at hc
          obtain rfl := Option.some.inj hc
          exact .inl (Option.isSome_iff_ne_none.2 hwriter)
        · rw [State.handGrants_block, State.setBlock_block_self] at hc
          obtain rfl := Option.some.inj hc
          refine .inr ⟨hleft w hw, addReaders_ne_nil (fun hnone => ?_) _⟩
          rw [hnone, List.nil_append] at hsplit
          have := hleft v (by rw [← hsplit]; rfl)
          simp [hwrite] at this

/-- Settles O32, along R29. -/
theorem evaluationGrantsFromTheHead : Obligations.EvaluationGrantsFromTheHead :=
  ⟨fun _ _ _ hb => ⟨State.evaluate_none hb, fun _ _ hdest hwaiters hwrite => State.evaluate_writer hb hdest hwaiters hwrite,
    fun _ _ _ _ hdest hwaiters hwrite hsplit hgranted hleft =>
      State.evaluate_readers hb hdest hwaiters hwrite hsplit hgranted hleft⟩, State.evaluate_head⟩

end Sys2Proof.Machine
end

section
/-! PROOFS. Job numbering (R116), the search for a job (R128, R133) with JOB-STATUS, and RESTART ENGINE (R168). -/

namespace Sys2Proof.Machine

/-! ## Job numbering -/

/-- The `k`-th candidate from a counter in 1..65535 (R116). -/
def candidateFrom (c k : Nat) : Nat := (c - 1 + k) % 65535 + 1

theorem candidateFrom_zero {c : Nat} (hlow : 1 ≤ c) (hhigh : c ≤ 65535) : candidateFrom c 0 = c := by
  unfold candidateFrom
  omega

theorem nextCandidate_bounds (c : Nat) : 1 ≤ nextCandidate c ∧ nextCandidate c ≤ 65535 := by
  unfold nextCandidate
  split_ifs <;> omega

theorem candidateFrom_next {c : Nat} (hlow : 1 ≤ c) (hhigh : c ≤ 65535) (k : Nat) :
    candidateFrom (nextCandidate c) k = candidateFrom c (k + 1) := by
  unfold candidateFrom nextCandidate
  split_ifs <;> omega

theorem candidateFrom_inj {c j k : Nat} (hj : j ≤ 48) (hk : k ≤ 48) (h : candidateFrom c j = candidateFrom c k) :
    j = k := by
  unfold candidateFrom at h
  omega

/-- The search passes over live ids only, and stops at the first that is not live, if its fuel lasts. -/
theorem firstFreeId_spec (live : List Nat) (fuel : Nat) {c : Nat} (hlow : 1 ≤ c) (hhigh : c ≤ 65535) :
    ∃ k, k ≤ fuel ∧ firstFreeId live fuel c = candidateFrom c k ∧ (∀ j, j < k → candidateFrom c j ∈ live) ∧
      (k < fuel → candidateFrom c k ∉ live) := by
  induction fuel generalizing c with
  | zero => exact ⟨0, le_refl _, (candidateFrom_zero hlow hhigh).symm, by omega, by omega⟩
  | succ fuel ih =>
    by_cases hc : c ∈ live
    · obtain ⟨hnlow, hnhigh⟩ := nextCandidate_bounds c
      obtain ⟨k, hk, heq, hpassed, hfree⟩ := ih hnlow hnhigh
      refine ⟨k + 1, by omega, ?_, fun j hj => ?_, fun h => ?_⟩
      · rw [firstFreeId, if_pos (List.contains_iff_mem.2 hc), heq, candidateFrom_next hlow hhigh]
      · cases j with
        | zero => rwa [candidateFrom_zero hlow hhigh]
        | succ j =>
          rw [← candidateFrom_next hlow hhigh]
          exact hpassed j (by omega)
      · rw [← candidateFrom_next hlow hhigh]
        exact hfree (by omega)
    · refine ⟨0, by omega, ?_, by omega, fun _ => ?_⟩
      · rw [firstFreeId, if_neg (mt List.contains_iff_mem.1 hc), candidateFrom_zero hlow hhigh]
      · rwa [candidateFrom_zero hlow hhigh]

/-- With at most 48 live jobs one of 49 candidates is free. -/
theorem State.issueId_spec {s : State} (hlow : 1 ≤ s.nextId) (hhigh : s.nextId ≤ 65535)
    (hjobs : s.liveJobs.length ≤ 48) :
    ∃ k, k ≤ 48 ∧ s.issueId = candidateFrom s.nextId k ∧ s.issueId ∉ s.liveIds ∧
      ∀ j, j < k → candidateFrom s.nextId j ∈ s.liveIds := by
  obtain ⟨k, hk, heq, hpassed, hfree⟩ := firstFreeId_spec s.liveIds 48 hlow hhigh
  refine ⟨k, hk, heq, fun hlive => ?_, hpassed⟩
  have hlast : k = 48 := by
    by_contra hne
    exact hfree (by omega) (heq ▸ hlive)
  have hall : (List.range 49).map (candidateFrom s.nextId) ⊆ s.liveIds := by
    intro id hid
    obtain ⟨j, hj, rfl⟩ := List.mem_map.1 hid
    have hj' := List.mem_range.1 hj
    by_cases h : j < k
    · exact hpassed j h
    · rw [show j = k by omega, ← heq]
      exact hlive
  have hnodup : ((List.range 49).map (candidateFrom s.nextId)).Nodup := by
    refine List.Nodup.map_on (fun i hi j hj h => ?_) List.nodup_range
    have := List.mem_range.1 hi
    have := List.mem_range.1 hj
    exact candidateFrom_inj (by omega) (by omega) h
  have hlen := (List.subperm_of_subset hnodup hall).length_le
  rw [List.length_map, List.length_range, State.liveIds, List.length_map] at hlen
  omega

/-- Settles O42, by the count of candidates. -/
theorem issuedIdIsTheFirstFreeCandidate : Obligations.IssuedIdIsTheFirstFreeCandidate :=
  fun _ hlow hhigh hjobs => State.issueId_spec hlow hhigh hjobs

/-! ## Live jobs -/

theorem State.mem_liveJobs {s : State} {g : GangId} {J : Job} :
    (g, J) ∈ s.liveJobs ↔ ∃ G, s.gang g = some G ∧ J ∈ G.queue := by
  unfold State.liveJobs
  rw [List.mem_flatMap]
  constructor
  · rintro ⟨⟨h, G⟩, hmem, hin⟩
    obtain ⟨K, hK, heq⟩ := List.mem_map.1 hin
    cases heq
    exact ⟨G, State.mem_formed.1 hmem, hK⟩
  · rintro ⟨G, hG, hJ⟩
    exact ⟨(g, G), State.mem_formed.2 hG, List.mem_map.2 ⟨J, hJ, rfl⟩⟩

theorem State.mem_liveIds {s : State} {id : Nat} :
    id ∈ s.liveIds ↔ ∃ g G J, s.gang g = some G ∧ J ∈ G.queue ∧ J.id = id := by
  unfold State.liveIds
  rw [List.mem_map]
  constructor
  · rintro ⟨⟨g, J⟩, hmem, rfl⟩
    obtain ⟨G, hG, hJ⟩ := State.mem_liveJobs.1 hmem
    exact ⟨g, G, J, hG, hJ, rfl⟩
  · rintro ⟨g, G, J, hG, hJ, rfl⟩
    exact ⟨(g, J), State.mem_liveJobs.2 ⟨G, hG, hJ⟩, rfl⟩

/-- The ids of the live jobs, gang by gang. -/
theorem State.liveIds_eq (s : State) : s.liveIds = s.formed.flatMap fun e => e.2.queue.map Job.id := by
  simp [State.liveIds, State.liveJobs, List.map_flatMap, Function.comp_def]

/-- With distinct ids a job stands in one gang's queue. -/
theorem State.IdsDistinct.gang_eq {s : State} (h : s.IdsDistinct) {g k : GangId} {G K : Gang} {I J : Job}
    (hG : s.gang g = some G) (hK : s.gang k = some K) (hI : I ∈ G.queue) (hJ : J ∈ K.queue) (hid : I.id = J.id) :
    g = k := by
  have hnodup := h.1
  rw [State.liveIds_eq, List.nodup_flatMap] at hnodup
  by_contra hne
  have hsymm : Std.Symm (Function.onFun List.Disjoint fun e : GangId × Gang => e.2.queue.map Job.id) :=
    ⟨fun _ _ hd => List.Disjoint.symm hd⟩
  exact hnodup.2.forall (State.mem_formed.2 hG) (State.mem_formed.2 hK) (fun heq => hne (congrArg Prod.fst heq))
    (List.mem_map_of_mem hI) (hid ▸ List.mem_map_of_mem hJ)

/-- With distinct ids a queue holds an id once. -/
theorem State.IdsDistinct.queue_nodup {s : State} (h : s.IdsDistinct) {g : GangId} {G : Gang} (hG : s.gang g = some G) :
    (G.queue.map Job.id).Nodup := by
  have hnodup := h.1
  rw [State.liveIds_eq, List.nodup_flatMap] at hnodup
  exact hnodup.1 _ (State.mem_formed.2 hG)

theorem splitAtId_append {before behind : List Job} {J : Job} (h : ∀ K ∈ before, K.id ≠ J.id) :
    splitAtId J.id (before ++ J :: behind) = some (before, J, behind) := by
  induction before with
  | nil => exact if_pos rfl
  | cons K ks ih =>
    rw [List.cons_append, splitAtId, if_neg (h K List.mem_cons_self), ih fun I hI => h I (List.mem_cons_of_mem _ hI)]
    rfl

theorem splitAtId_eq_none {id : Nat} {l : List Job} (h : ∀ J ∈ l, J.id ≠ id) : splitAtId id l = none := by
  induction l with
  | nil => rfl
  | cons K ks ih =>
    rw [splitAtId, if_neg (h K List.mem_cons_self), ih fun I hI => h I (List.mem_cons_of_mem _ hI)]
    rfl

theorem State.findJob_none {s : State} {id : Nat} (h : id = 0 ∨ id ∉ s.liveIds) : s.findJob id = none := by
  unfold State.findJob
  split_ifs with hzero
  · rfl
  · have hdead := h.resolve_left hzero
    refine List.findSome?_eq_none_iff.2 fun e he => ?_
    rw [splitAtId_eq_none fun J hJ hid => hdead (State.mem_liveIds.2 ⟨e.1, e.2, J, State.mem_formed.1 he, hJ, hid⟩)]
    rfl

/-- With distinct ids the search finds the job at its place. -/
theorem State.IdsDistinct.findJob {s : State} (h : s.IdsDistinct) {g : GangId} {G : Gang} {before behind : List Job}
    {J : Job} (hG : s.gang g = some G) (hqueue : G.queue = before ++ J :: behind) :
    s.findJob J.id = some ⟨g, G, before, J, behind⟩ := by
  have hJ : J ∈ G.queue := by simp [hqueue]
  have hlive : J.id ∈ s.liveIds := State.mem_liveIds.2 ⟨g, G, J, hG, hJ, rfl⟩
  have hzero : J.id ≠ 0 := fun h0 => h.2 (h0 ▸ hlive)
  have hbefore : ∀ K ∈ before, K.id ≠ J.id := by
    have hnodup := h.queue_nodup hG
    rw [hqueue, List.map_append, List.map_cons, List.nodup_append] at hnodup
    exact fun K hK => hnodup.2.2 _ (List.mem_map_of_mem hK) _ List.mem_cons_self
  cases hfound : s.findJob J.id with
  | none =>
    unfold State.findJob at hfound
    rw [if_neg hzero] at hfound
    have := List.findSome?_eq_none_iff.1 hfound (g, G) (State.mem_formed.2 hG)
    rw [hqueue, splitAtId_append hbefore] at this
    cases this
  | some f =>
    obtain ⟨hfG, hfq, hfid, hfb⟩ := State.findJob_eq hfound
    have hgang : f.gang = g := h.gang_eq hfG hG (by simp [hfq]) hJ hfid
    have hrecord : f.record = G := Option.some.inj (hfG.symm.trans (hgang ▸ hG))
    have hsplit : splitAtId J.id G.queue = some (f.before, f.job, f.behind) := by
      rw [← hrecord, hfq, ← hfid]
      exact splitAtId_append fun K hK => hfid ▸ hfb K hK
    rw [hqueue, splitAtId_append hbefore] at hsplit
    obtain ⟨fg, fr, fb, fj, fbe⟩ := f
    cases hsplit
    dsimp only at hgang hrecord
    rw [hgang, hrecord]

theorem State.popped_findJob (s : State) (x : LinkId) (rest : List Request) (id : Nat) :
    (s.popped x rest).findJob id = s.findJob id := by
  cases x <;> rfl

theorem exec_jobStatus (x : LinkId) (s : State) : exec (.jobStatus x) s = execJobStatus x s := by rfl

theorem u16_be16 (hi lo : Byte) : u16 (hi.toNat * 256 + lo.toNat) = [hi, lo] := by
  rw [u16_mul_add]
  simp

/-- Settles O46: a live job is found at its place in its gang's queue. -/
theorem jobStatusReportsTheJob : Obligations.JobStatusReportsTheJob := by
  intro s x r rest hi lo hids htake hcode hpay id
  have hid : be16 r.payload 0 = id := by rw [hpay]; rfl
  have hexec : exec (.jobStatus x) s = .next (answer x r (s.popped x rest)
      (match s.findJob id with
      | none => .refuse .noSuchJob
      | some f => .ok f.fields (s.popped x rest))) := by
    rw [exec_jobStatus, execJobStatus, State.serve_eq (code := Code.jobStatus) htake hcode (by simp [hpay]), hid,
      State.popped_findJob] <;> rfl
  refine ⟨fun hdead => ?_, fun g G before J behind B hG hqueue hJ hbeat => ?_⟩
  · rw [hexec, State.findJob_none hdead]
    exact congrArg _ (answer_refuse ..)
  · have hbytes : u16 J.id = [hi, lo] := by rw [hJ]; exact u16_be16 hi lo
    rw [hexec, ← hJ, hids.findJob hG hqueue]
    dsimp only
    rw [answer_ok_same, Found.fields, Found.done, Found.beat, hbytes]
    refine congrArg _ (congrArg _ ?_)
    cases before <;> cases J.dir <;> cases J.state <;> simp [statusOk, hbeat, Direction.num, JobState.num, Beat.init, u8, u16, u32]

/-! ## RESTART ENGINE -/

/-- The link once its pending SYNC, if it has one, is answered GANG_GONE (R153). -/
def Link.syncEnded (l : Link) : Link :=
  match l.sync with
  | none => l
  | some p =>
    { l with sync := none, replies := replaceReservation ⟨p.tag, Code.sync, Status.gangGone.code :: u8 p.gang.val⟩ l.replies }

theorem Link.syncEnded_keeps (l : Link) :
    l.syncEnded.intake = l.intake ∧ l.syncEnded.sync = none ∧ l.syncEnded.notices = l.notices ∧ l.syncEnded.seq = l.seq := by
  unfold Link.syncEnded
  split
  · exact ⟨rfl, by assumption, rfl, rfl⟩
  · exact ⟨rfl, rfl, rfl, rfl⟩

theorem Link.syncEnded_of_none {l : Link} (h : l.sync = none) : l.syncEnded = l := by
  rw [Link.syncEnded, h]

theorem Link.syncEnded_replies {l : Link} {p : PendingSync} (h : l.sync = some p) :
    l.syncEnded.replies = replaceReservation ⟨p.tag, Code.sync, Status.gangGone.code :: u8 p.gang.val⟩ l.replies := by
  rw [Link.syncEnded, h]

/-- The link when every gang has gone: its waiting edge notices keep their place, and its SYNC is answered. -/
def Link.gangsEnded (l : Link) : Link :=
  ({ l with notices := l.notices.map (Notice.orphan fun _ => true) } : Link).syncEnded

theorem Link.gangsEnded_replies {l : Link} (h : l.sync = none) : l.gangsEnded.replies = l.replies := by
  rw [Link.gangsEnded, Link.syncEnded_of_none (l := { l with notices := l.notices.map _ }) h]

theorem State.syncGone_all (s : State) (x : LinkId) :
    (s.syncGone x fun _ => true) = s.setLink x (s.link x).syncEnded := by
  unfold State.syncGone State.resolveSyncOf
  cases hsync : (s.link x).sync with
  | none => rw [Link.syncEnded_of_none hsync, State.setLink_same]
  | some p =>
    dsimp only
    rw [if_pos rfl, State.resolveSync_eq hsync, Link.syncEnded, hsync]

/-- RESTART ENGINE but for its reply and notices, field by field (R168). -/
theorem State.engineRestart_links (s : State) :
    s.engineRestart = (s.cleared.setLink .a s.linkA.gangsEnded).setLink .b s.linkB.gangsEnded := by
  rw [State.engineRestart_eq, State.syncGone_all, State.syncGone_all]
  rfl

theorem State.engineRestart_link (s : State) (y : LinkId) : s.engineRestart.link y = (s.link y).gangsEnded := by
  rw [State.engineRestart_links]
  cases y <;> rfl

theorem State.pushReply_eq (s : State) (x : LinkId) (r : Reply) :
    s.pushReply x r = s.setLink x { s.link x with replies := (s.link x).replies ++ [.reply r] } := rfl

/-- A notice on a link with room leaves it last and takes the link's sequence. -/
theorem State.notify_last {s : State} {x : LinkId} (h : (s.link x).notices.length < 16) (body : NoticeBody) :
    (((s.notify x body).link x).notices.getLast?.map Notice.body) = some body ∧
      ((s.notify x body).link x).seq = (s.link x).seq + 1#8 := by
  rw [State.notify_eq, State.setLink_link_self, if_pos h]
  exact ⟨by simp, rfl⟩

theorem link_eq_other {x y : LinkId} (h : y ≠ x) : y = x.other := by
  cases x <;> cases y <;> simp_all [LinkId.other]

theorem State.notify_link_kept (s : State) (x y : LinkId) (body : NoticeBody) :
    ((s.notify x body).link y).intake = (s.link y).intake ∧ ((s.notify x body).link y).sync = (s.link y).sync ∧
      ((s.notify x body).link y).replies = (s.link y).replies := by
  by_cases hy : y = x
  · subst hy
    rw [State.notify_eq, State.setLink_link_self]
    split_ifs <;> exact ⟨rfl, rfl, rfl⟩
  · rw [State.notify_link_ne s body hy]
    exact ⟨rfl, rfl, rfl⟩

theorem exec_restartEngine_taken {s : State} {x : LinkId} {r : Request} {rest : List Request} (htake : s.Takes x r rest)
    (hcode : r.code = 0x03#8) (hpay : r.payload = [0#8]) :
    exec (.restartEngine x) s = .next ((s.popped x rest).doRestartEngine x r) := by
  rw [exec_restartEngine, execRestartEngine, State.take_eq htake (by simp [hcode, Code.restart, hpay]), if_pos hpay]

/-- Settles O16: the state without gangs, then the reply, then the notices. -/
theorem restartEngineEndsAllWork : Obligations.RestartEngineEndsAllWork := by
  intro s x r rest htake hcode hpay
  refine ⟨_, exec_restartEngine_taken htake hcode hpay, ?_⟩
  set ended := (s.popped x rest).engineRestart with hended
  set reply : Reply :=
    ⟨r.tag, r.code, statusOk :: (u8 (s.popped x rest).liveJobs.length ++ u8 (s.popped x rest).formed.length)⟩ with hreply
  set replied := ended.pushReply x reply with hreplied
  set body := NoticeBody.started .engine (requestCause x) with hbody
  have ht : (s.popped x rest).doRestartEngine x r = (replied.notify .a body).notify .b body := rfl
  rw [ht]
  set t := (replied.notify .a body).notify .b body with htdef
  have hlink (y : LinkId) : ended.link y = ((s.popped x rest).link y).gangsEnded := State.engineRestart_link _ y
  have hself : (s.popped x rest).link x = { s.link x with intake := rest } := State.setLink_link_self ..
  have hother : (s.popped x rest).link x.other = s.link x.other := State.setLink_link_other ..
  have hrepliedSelf : replied.link x = { ended.link x with replies := (ended.link x).replies ++ [.reply reply] } :=
    State.setLink_link_self ..
  have hrepliedOther : replied.link x.other = ended.link x.other := State.setLink_link_other ..
  have hkept (y : LinkId) : (t.link y).intake = (replied.link y).intake ∧ (t.link y).sync = (replied.link y).sync ∧
      (t.link y).replies = (replied.link y).replies := by
    obtain ⟨hi, hs, hr⟩ := (replied.notify .a body).notify_link_kept .b y body
    obtain ⟨hi', hs', hr'⟩ := replied.notify_link_kept .a y body
    exact ⟨hi.trans hi', hs.trans hs', hr.trans hr'⟩
  have honly : ∃ a b : Link, t = { s.cleared with linkA := a, linkB := b } := by
    rw [htdef, hreplied, hended, State.engineRestart_links]
    cases x <;> exact ⟨_, _, rfl⟩
  have hbehind : (∀ g : GangId, t.gang g = none) ∧
      (∀ i : LaneId, t.lanes[i] = { gang := none, latched := s.lanes[i].latched, enabled := false }) ∧
      (∀ i : SlotId, t.dir[i].gen = s.dir[i].gen ∧
        t.block i = (s.block i).map fun b => { b with readers := [], writer := none, waiters := [], refs := 0 }) ∧
      t.nextId = 1 ∧ t.store = s.store ∧ t.free = s.free ∧ t.pack = s.pack ∧ t.mode = s.mode ∧ t.pins = s.pins ∧
      t.gap = s.gap ∧ t.rate = s.rate ∧ t.silent = s.silent := by
    obtain ⟨a, b, h⟩ := honly
    rw [h]
    refine ⟨fun g => ?_, fun i => ?_, fun i => ⟨?_, ?_⟩, rfl, rfl, rfl, rfl, rfl, rfl, rfl, rfl, rfl⟩
    · simp [State.gang, State.cleared]
    · simp [State.cleared, Lane.freed]
    · simp [State.cleared]
    · simp [State.block, State.cleared]
  obtain ⟨hgang, hlanes, hdir, hnext, hstore, hfree, hpack, hmode, hpins, hgap, hrate, hsilent⟩ := hbehind
  refine ⟨hgang, hlanes, hdir, hnext, hstore, hfree, hpack, hmode.trans htake.1, hpins, hgap, hrate, hsilent, ?_, ?_, ?_,
    ?_, fun p hp => ?_, fun y hroom => ?_⟩
  · rw [(hkept x).1, hrepliedSelf, hlink, hself]
    exact (Link.syncEnded_keeps _).1
  · rw [(hkept x).2.2, hrepliedSelf, hlink, hself, hreply, hcode, State.popped_liveJobs, State.popped_formed]
    dsimp only
    rw [Link.gangsEnded_replies (l := { s.link x with intake := rest }) htake.2.2.1]
    rfl
  · rw [(hkept _).1, hrepliedOther, hlink, hother]
    exact (Link.syncEnded_keeps _).1
  · rw [(hkept _).2.1, hrepliedOther, hlink]
    exact (Link.syncEnded_keeps _).2.1
  · rw [(hkept _).2.2, hrepliedOther, hlink, hother]
    exact Link.syncEnded_replies hp
  · have hnotices (y : LinkId) : (replied.link y).notices.length = (s.link y).notices.length ∧
        (replied.link y).seq = (s.link y).seq := by
      have hgone (l : Link) : l.gangsEnded.notices.length = l.notices.length ∧ l.gangsEnded.seq = l.seq := by
        obtain ⟨-, -, hn, hs⟩ := (Link.syncEnded_keeps { l with notices := l.notices.map (Notice.orphan fun _ => true) })
        exact ⟨(congrArg List.length hn).trans (List.length_map _), hs⟩
      by_cases hy : y = x
      · subst hy
        rw [hrepliedSelf, hlink, hself]
        exact hgone _
      · have hyo : y = x.other := link_eq_other hy
        subst hyo
        rw [hrepliedOther, hlink, hother]
        exact hgone _
    have hlast : ((t.link y).notices.getLast?.map Notice.body) = some body ∧ (t.link y).seq = (s.link y).seq + 1#8 := by
      rw [← (hnotices y).1] at hroom
      rw [← (hnotices y).2]
      cases y with
      | a =>
        rw [htdef, State.notify_link_ne _ body (by decide)]
        exact State.notify_last hroom body
      | b =>
        have hb : (replied.notify .a body).link .b = replied.link .b := State.notify_link_ne _ body (by decide)
        rw [← hb] at hroom ⊢
        exact State.notify_last hroom body
    refine ⟨hlast.1.trans ?_, hlast.2⟩
    show some (NoticeBody.started .engine (requestCause x)) = _
    cases x <;> rfl

end Sys2Proof.Machine
end

section
/-! PROOFS. What a grant evaluation leaves of the gangs, the lanes and the access records (R29), and the link reset (R134,
R155). -/

namespace Sys2Proof.Machine

/-! ## Gangs renewed by a grant or a beat -/

/-- A job but for its state. -/
def Job.bare (J : Job) : Job := { J with state := .queued }

/-- Two queues that differ in the state of the head at most. -/
def SameJobs (q q' : List Job) : Prop := q'.tail = q.tail ∧ q'.head?.map Job.bare = q.head?.map Job.bare

theorem SameJobs.refl (q : List Job) : SameJobs q q := ⟨rfl, rfl⟩

theorem SameJobs.trans {q r v : List Job} (h : SameJobs q r) (k : SameJobs r v) : SameJobs q v :=
  ⟨k.1.trans h.1, k.2.trans h.2⟩

theorem SameJobs.head (J : Job) (later : List Job) (st : JobState) :
    SameJobs (J :: later) ({ J with state := st } :: later) := ⟨rfl, rfl⟩

/-- What does not look at a job's state is the same along both queues. -/
theorem SameJobs.map_eq {α : Type} {f : Job → α} (hf : ∀ J, f J.bare = f J) {q q' : List Job} (h : SameJobs q q') :
    q'.map f = q.map f := by
  obtain ⟨htail, hhead⟩ := h
  cases q with
  | nil =>
    cases q' with
    | nil => rfl
    | cons J l => simp at hhead
  | cons K ks =>
    cases q' with
    | nil => simp at hhead
    | cons J l =>
      simp only [List.head?_cons, Option.map_some, Option.some.injEq] at hhead
      simp only [List.tail_cons] at htail
      rw [List.map_cons, List.map_cons, htail, ← hf J, hhead, hf K]

/-- The gang's record, but for what a grant and the beats behind it change. -/
def Gang.Renewed (G H : Gang) : Prop :=
  ∃ (ctl : Bool) (beat : Option Beat) (queue : List Job),
    H = { G with ctl := ctl, beat := beat, queue := queue } ∧ beat.isSome = G.beat.isSome ∧ SameJobs G.queue queue

theorem Gang.Renewed.refl (G : Gang) : G.Renewed G := ⟨_, _, _, rfl, rfl, .refl _⟩

theorem Gang.Renewed.trans {G H K : Gang} : G.Renewed H → H.Renewed K → G.Renewed K := by
  rintro ⟨_, _, _, rfl, hb, hq⟩ ⟨_, _, _, rfl, hb', hq'⟩
  exact ⟨_, _, _, rfl, hb'.trans hb, hq.trans hq'⟩

theorem Gang.Renewed.settings {G H : Gang} : G.Renewed H → H.settings = G.settings := by
  rintro ⟨_, _, _, rfl, -, -⟩
  rfl

theorem Gang.has_of_settings {G H : Gang} (h : H.settings = G.settings) (i : Nat) : H.has i = G.has i := by
  simp only [Gang.settings, Prod.mk.injEq] at h
  obtain ⟨-, hfirst, hwidth, -⟩ := h
  rw [Gang.has, Gang.has, hfirst, hwidth]

/-- Gangs are renewed at most, and lanes of no gang stay. -/
structure Works (s t : State) : Prop where
  formed : ∀ k, ∀ G ∈ s.gang k, ∃ H ∈ t.gang k, G.Renewed H
  free : ∀ k, s.gang k = none → t.gang k = none
  lane : ∀ i : LaneId, (∀ k, ∀ G ∈ s.gang k, G.has i.val = false) → t.lanes[i] = s.lanes[i]

theorem Works.refl (s : State) : Works s s := ⟨fun _ G hG => ⟨G, hG, .refl G⟩, fun _ h => h, fun _ _ => rfl⟩

theorem Works.trans {s t u : State} (h : Works s t) (k : Works t u) : Works s u where
  formed g G hG := by
    obtain ⟨H, hH, hGH⟩ := h.formed g G hG
    obtain ⟨K, hK, hHK⟩ := k.formed g H hH
    exact ⟨K, hK, hGH.trans hHK⟩
  free g hg := k.free g (h.free g hg)
  lane i hi := by
    refine (k.lane i fun g H hH => ?_).trans (h.lane i hi)
    cases hG : s.gang g with
    | none =>
      rw [h.free g hG] at hH
      cases hH
    | some G =>
      obtain ⟨H', hH', hGH⟩ := h.formed g G hG
      obtain rfl := Option.some.inj (hH.symm.trans hH')
      rw [Gang.has_of_settings hGH.settings]
      exact hi g G hG

/-- Nothing but gangs' records written alike. -/
theorem Works.modGang (s : State) (g : GangId) {f : Gang → Gang} (hf : ∀ G : Gang, G.Renewed (f G)) : Works s (s.modGang g f) where
  formed k G hG := by
    by_cases hk : k = g
    · subst hk
      exact ⟨f G, by rw [State.modGang_gang_self, Option.mem_def.1 hG]; rfl, hf G⟩
    · exact ⟨G, by rwa [State.modGang_gang_ne _ _ hk], .refl G⟩
  free k hk := by
    by_cases hkg : k = g
    · subst hkg
      rw [State.modGang_gang_self, hk]
      rfl
    · rwa [State.modGang_gang_ne _ _ hkg]
  lane _ _ := rfl

theorem Works.modLanes {s : State} {g : GangId} {G : Gang} (hG : s.gang g = some G) (f : Nat → Lane → Lane) :
    Works s (s.modLanes G f) where
  formed k H hH := ⟨H, hH, .refl H⟩
  free _ hk := hk
  lane i hi := by rw [State.modLanes_lane, hi g G hG]; rfl

theorem Works.of_table {s t : State} (hgangs : t.gangs = s.gangs) (hlanes : t.lanes = s.lanes) : Works s t where
  formed k G hG := ⟨G, by rwa [State.gang, hgangs], .refl G⟩
  free k hk := by rwa [State.gang, hgangs]
  lane i _ := by rw [hlanes]

theorem Works.modBlock (s : State) (i : SlotId) (f : Block → Block) : Works s (s.modBlock i f) := .of_table rfl rfl

theorem Works.modBeat (s : State) (g : GangId) (f : Beat → Beat) : Works s (s.modBeat g f) :=
  .modGang s g fun G => ⟨_, _, _, rfl, by simp, .refl _⟩

theorem Works.setPhase (s : State) (g : GangId) (p : Phase) : Works s (s.setPhase g p) := .modBeat s g _

theorem Works.setCtl (s : State) (g : GangId) (level : Bool) : Works s (s.setCtl g level) :=
  .modGang s g fun _ => ⟨_, _, _, rfl, rfl, .refl _⟩

theorem Works.setJobState (s : State) (g : GangId) (st : JobState) : Works s (s.setJobState g st) := by
  refine .modGang s g fun G => ⟨_, _, _, rfl, rfl, ?_⟩
  cases G.queue with
  | nil => exact .refl _
  | cons J later => exact .head J later st

theorem Works.withActive {s : State} {g : GangId} {f : Gang → Job → Beat → State}
    (h : ∀ G J later B, s.Active g G J later B → Works s (f G J B)) : Works s (s.withActive g f) :=
  withActive_cases (.refl s) h

theorem Works.drive (s : State) (g : GangId) : Works s (s.drive g) := by
  refine .withActive fun G J later B ⟨hG, _, _⟩ => ?_
  split
  · exact .refl s
  · exact (Works.modLanes hG _).trans (.modBeat _ g _)

theorem Works.driveAndSettle (s : State) (g : GangId) : Works s (s.driveAndSettle g) :=
  (Works.drive s g).trans (.setPhase _ g _)

theorem Works.passReady (s : State) (g : GangId) : Works s (s.passReady g) := by
  refine .withActive fun G J later B _ => ?_
  split
  · exact .driveAndSettle s g
  · exact (Works.setCtl s g true).trans (.setPhase _ g _)

theorem Works.periodStart (s : State) (g : GangId) : Works s (s.periodStart g) := by
  refine .withActive fun G J later B _ => ?_
  refine (Works.modBeat s g fun B => { B with periodTimer := .running G.time.period }).trans ?_
  dsimp only
  split
  · exact .driveAndSettle _ g
  · exact (Works.setCtl _ g true).trans (.setPhase _ g _)

theorem Works.enterFirst (s : State) (g : GangId) : Works s (s.enterFirst g) := by
  refine .withActive fun G J later B _ => ?_
  split
  · exact .refl s
  · split_ifs
    · exact .setPhase s g _
    · exact .passReady s g
  · split_ifs
    · exact .setPhase s g _
    · exact .passReady s g
  · exact .setPhase s g _
  · split_ifs
    · exact .driveAndSettle s g
    · exact .setPhase s g _
  · exact .setPhase s g _
  · split_ifs
    · exact .setPhase s g _
    · exact .periodStart s g
  · exact .periodStart s g

theorem Works.tryBegin (s : State) (g : GangId) : Works s (s.tryBegin g) := by
  refine .withActive fun G J later B _ => ?_
  split_ifs
  · exact .withActive fun G J later B _ => (Works.modBeat s g _).trans (.enterFirst _ g)
  · exact .refl s

theorem Works.handGrant (s : State) (g : GangId) : Works s (s.handGrant g) := by
  unfold State.handGrant
  split
  · exact .refl s
  · split
    · exact .setJobState s g _
    · exact (Works.setJobState s g _).trans (.tryBegin _ g)
    · exact (Works.setJobState s g _).trans (.tryBegin _ g)

theorem Works.handGrants (l : List Waiter) (s : State) : Works s (l.foldl (fun s v => s.handGrant v.gang) s) := by
  induction l generalizing s with
  | nil => exact .refl s
  | cons w ws ih => exact (Works.handGrant s w.gang).trans (ih _)

/-! ## The record behind a grant evaluation -/

/-- What a grant evaluation does: it hands grants to some waiters of the block, whose record keeps everything but its
holders and the waiters granted. -/
inductive Evaluated (s : State) (i : SlotId) : State → Prop
  | same : Evaluated s i s
  | granted {b : Block} (hb : s.block i = some b) (hready : b.dest = none) (readers : List GangId)
      (writer : Option GangId) (run left : List Waiter) (hsplit : b.waiters = run ++ left)
      (hrecord : (∃ w, run = [w] ∧ w.write = true ∧ b.readers = [] ∧ b.writer = none ∧ readers = [] ∧ writer = some w.gang) ∨
        ((∀ v ∈ run, v.write = false) ∧ b.writer = none ∧ writer = none ∧
          readers = run.foldl (fun r v => addReader v.gang r) b.readers)) :
      Evaluated s i (run.foldl (fun s v => s.handGrant v.gang)
        (s.setBlock i (some { b with readers := readers, writer := writer, waiters := left })))

theorem State.evaluate_cases (s : State) (i : SlotId) : Evaluated s i (s.evaluate i) := by
  cases hb : s.block i with
  | none =>
    have hsame : s.evaluate i = s := by rw [State.evaluate, hb]
    rw [hsame]
    exact .same
  | some b =>
    by_cases hidle : b.dest ≠ none ∨ b.waiters = []
    · rw [State.evaluate_none hb hidle]
      exact .same
    · obtain ⟨hready, hwaits⟩ := not_or.1 hidle
      obtain ⟨w, ws, hwaiters⟩ := List.exists_cons_of_ne_nil hwaits
      cases hwrite : w.write with
      | true =>
        rw [State.evaluate_writer hb (not_not.1 hready) hwaiters hwrite]
        split_ifs with hfree
        · have := Evaluated.granted hb (not_not.1 hready) [] (some w.gang) [w] ws (by rw [hwaiters]; rfl)
            (.inl ⟨w, rfl, hwrite, hfree.1, hfree.2, rfl, rfl⟩)
          rwa [← hfree.1] at this
        · exact .same
      | false =>
        obtain ⟨run, left, hsplit, hrun, hleft⟩ := exists_readers_run (w :: ws)
        rw [State.evaluate_readers hb (not_not.1 hready) hwaiters hwrite hsplit hrun hleft]
        split_ifs with hwriter
        · exact .same
        · have hnone : b.writer = none := not_not.1 hwriter
          exact Evaluated.granted hb (not_not.1 hready) _ b.writer run left (by rw [hwaiters, hsplit])
            (.inr ⟨hrun, hnone, hnone, rfl⟩)

theorem Works.evaluate (s : State) (i : SlotId) : Works s (s.evaluate i) := by
  have h := s.evaluate_cases i
  generalize s.evaluate i = t at h ⊢
  cases h with
  | same => exact .refl s
  | granted =>
    have hset (o : Option Block) : Works s (s.setBlock i o) := .of_table rfl rfl
    exact (hset _).trans (.handGrants _ _)

theorem Works.evaluates (l : List SlotId) (s : State) : Works s (l.foldl State.evaluate s) := by
  induction l generalizing s with
  | nil => exact .refl s
  | cons i is ih => exact (Works.evaluate s i).trans (ih _)

theorem Block.mentions_eq_false_iff (b : Block) (hit : GangId → Bool) :
    b.mentions hit = false ↔
      (∀ g ∈ b.readers, hit g = false) ∧ (∀ g ∈ b.writer, hit g = false) ∧ ∀ w ∈ b.waiters, hit w.gang = false := by
  cases hwriter : b.writer <;> simp [Block.mentions, hwriter, and_assoc]

theorem mem_foldl_addReader (run : List Waiter) (readers : List GangId) (g : GangId) :
    g ∈ run.foldl (fun r v => addReader v.gang r) readers ↔ g ∈ readers ∨ ∃ w ∈ run, w.gang = g := by
  induction run generalizing readers with
  | nil => simp
  | cons v vs ih =>
    rw [List.foldl_cons, ih, mem_addReader]
    simp only [List.mem_cons, exists_eq_or_imp, eq_comm (a := g)]
    tauto

/-- The record of a block is evaluated without a change of anything but its entries, which all were there before. -/
structure Entries (b c : Block) : Prop where
  place : c.place = b.place
  refs : c.refs = b.refs
  mentions : ∀ hit, b.mentions hit = false → c.mentions hit = false

theorem Entries.refl (b : Block) : Entries b b := ⟨rfl, rfl, fun _ h => h⟩

theorem Entries.trans {b c d : Block} (h : Entries b c) (k : Entries c d) : Entries b d :=
  ⟨k.place.trans h.place, k.refs.trans h.refs, fun hit hb => k.mentions hit (h.mentions hit hb)⟩

/-- An evaluation leaves the other records alone and keeps this one but for its entries. -/
theorem State.evaluate_block (s : State) (i j : SlotId) :
    (s.block j = none → (s.evaluate i).block j = none) ∧
      ∀ b ∈ s.block j, ∃ c ∈ (s.evaluate i).block j, Entries b c := by
  have h := s.evaluate_cases i
  generalize s.evaluate i = t at h ⊢
  cases h with
  | same => exact ⟨id, fun b hb => ⟨b, hb, .refl b⟩⟩
  | @granted b hb hready readers writer run left hsplit hrecord =>
    rw [State.handGrants_block]
    by_cases hj : j = i
    · subst hj
      rw [State.setBlock_block_self]
      refine ⟨fun hnone => (Option.some_ne_none b (hb.symm.trans hnone)).elim, fun b' hb' => ?_⟩
      obtain rfl := Option.some.inj (hb.symm.trans hb')
      refine ⟨_, rfl, rfl, rfl, fun hit hfree => ?_⟩
      · obtain ⟨hreaders, hwriter, hwaiters⟩ := (Block.mentions_eq_false_iff _ _).1 hfree
        have hrun : ∀ w ∈ run, hit w.gang = false := fun w hw => hwaiters w (hsplit ▸ List.mem_append_left _ hw)
        refine (Block.mentions_eq_false_iff _ _).2 ⟨fun g hg => ?_, fun g hg => ?_, fun w hw => ?_⟩
        · rcases hrecord with ⟨w, rfl, -, -, -, rfl, -⟩ | ⟨-, -, -, rfl⟩
          · simp at hg
          · rcases (mem_foldl_addReader run b.readers g).1 hg with hg | ⟨w, hw, rfl⟩
            · exact hreaders g hg
            · exact hrun w hw
        · rcases hrecord with ⟨w, rfl, -, -, -, -, rfl⟩ | ⟨-, -, rfl, -⟩
          · obtain rfl := Option.some.inj hg
            exact hrun w List.mem_cons_self
          · simp at hg
        · exact hwaiters w (hsplit ▸ List.mem_append_right _ hw)
    · rw [State.setBlock_block_ne _ _ hj]
      exact ⟨id, fun b hb => ⟨b, hb, .refl b⟩⟩

theorem State.evaluates_block (l : List SlotId) (s : State) (j : SlotId) :
    (s.block j = none → (l.foldl State.evaluate s).block j = none) ∧
      ∀ b ∈ s.block j, ∃ c ∈ (l.foldl State.evaluate s).block j, Entries b c := by
  induction l generalizing s with
  | nil => exact ⟨id, fun b hb => ⟨b, hb, .refl b⟩⟩
  | cons i is ih =>
    refine ⟨fun hnone => (ih _).1 ((s.evaluate_block i j).1 hnone), fun b hb => ?_⟩
    obtain ⟨c, hc, hbc⟩ := (s.evaluate_block i j).2 b hb
    obtain ⟨d, hd, hcd⟩ := (ih (s.evaluate i)).2 c hc
    exact ⟨d, hd, hbc.trans hcd⟩

theorem State.onlyWork_evaluates (l : List SlotId) (s : State) : OnlyWork s (l.foldl State.evaluate s) := by
  induction l generalizing s with
  | nil => exact .refl s
  | cons i is ih => exact (s.onlyWork_evaluate i).trans (ih _)

/-! ## The link reset -/

theorem State.tornDown_gang (s : State) (x : LinkId) (g : GangId) :
    (s.tornDown x).gang g = if s.ownedBy x g then none else s.gang g := by
  have hnum : Fin.ofNat 8 g.val = g := by ext; simp
  show (vecMap _ s.gangs)[g.val] = _
  rw [vecMap_getElem, hnum]
  rfl

theorem State.tornDown_lane (s : State) (x : LinkId) (i : LaneId) :
    (s.tornDown x).lanes[i] = if s.lanes[i].gang.any (s.ownedBy x) then s.lanes[i].freed else s.lanes[i] := by
  show (vecMap _ s.lanes)[i.val] = _
  rw [vecMap_getElem]
  rfl

theorem State.onlyWork_tornDown (s : State) (x : LinkId) : OnlyWork s (s.tornDown x) := ⟨_, _, _, rfl⟩

theorem State.onlyWork_teardown (s : State) (x : LinkId) : OnlyWork s (s.teardown x) :=
  (s.onlyWork_tornDown x).trans (State.onlyWork_evaluates _ _)

theorem State.works_teardown (s : State) (x : LinkId) : Works (s.tornDown x) (s.teardown x) := .evaluates _ _

theorem State.ownedBy_iff {s : State} {x : LinkId} {g : GangId} {G : Gang} (hG : s.gang g = some G) :
    s.ownedBy x g = true ↔ G.owner = x := by
  rw [State.ownedBy, hG]
  simp

/-- A lane of a gang that is torn down is a free lane: no other gang has it (R55, R59). -/
theorem State.teardown_lane {s : State} (hagree : s.LanesAgree) {x : LinkId} {i : LaneId} {g : GangId}
    (hlane : s.lanes[i].gang = some g) (hown : s.ownedBy x g = true) : (s.teardown x).lanes[i] = s.lanes[i].freed := by
  rw [(s.works_teardown x).lane i, State.tornDown_lane, hlane]
  · exact if_pos hown
  · intro k G hG
    rw [State.tornDown_gang] at hG
    split_ifs at hG with hk
    · cases hG
    · refine Bool.eq_false_iff.2 fun hhas => ?_
      have hin : s.lanes[i].gang = some k := (hagree i k).2 (Option.any_eq_true _ _ |>.2 ⟨G, hG, hhas⟩)
      obtain rfl := Option.some.inj (hlane.symm.trans hin)
      exact hk hown

theorem State.syncGone_none {s : State} {x : LinkId} {hit : GangId → Bool}
    (h : ∀ p ∈ (s.link x).sync, hit p.gang = false) : s.syncGone x hit = s := by
  unfold State.syncGone State.resolveSyncOf
  cases hsync : (s.link x).sync with
  | none => rfl
  | some p => exact if_neg (by simp [h p hsync])

theorem State.syncGone_hit {s : State} {x : LinkId} {hit : GangId → Bool} {p : PendingSync}
    (hsync : (s.link x).sync = some p) (hp : hit p.gang = true) :
    s.syncGone x hit = s.setLink x
      { s.link x with
        sync := none
        replies := replaceReservation ⟨p.tag, Code.sync, Status.gangGone.code :: u8 p.gang.val⟩ (s.link x).replies } := by
  unfold State.syncGone State.resolveSyncOf
  rw [hsync]
  dsimp only
  rw [if_pos hp, State.resolveSync_eq hsync]

/-- The state of a link reset, but for the reset link and the gap timer (R155). -/
theorem State.linkReset_only (s : State) (x : LinkId) :
    s.linkReset x = { ((s.teardown x).syncGone x.other (s.ownedBy x)).setLink x .init with
      gap := match x with | .a => s.gap | .b => .stopped } := by
  obtain ⟨-, -, -, -, -, -, -, hgap, -⟩ := (s.onlyWork_teardown x).fields
  have hgone := (State.engine_resolveSyncOf (p := False) (s.teardown x) x.other (s.ownedBy x)
    fun g => Status.gangGone.code :: u8 g.val).fields.2.2.2.2.2.1
  cases x with
  | a =>
    show ((s.teardown .a).syncGone .b (s.ownedBy .a)).setLink .a .init = _
    rw [← hgap, ← hgone]
    rfl
  | b => rfl

/-- The link that is not reset loses only a SYNC on a gang that went (R153). -/
theorem State.linkReset_other (s : State) (x : LinkId) :
    (s.linkReset x).link x.other = ((s.teardown x).syncGone x.other (s.ownedBy x)).link x.other := by
  rw [State.linkReset_only]
  cases x <;> rfl

theorem Block.without_mentions (b : Block) (hit : GangId → Bool) (refs : Nat) :
    ({ b.without hit with refs := refs } : Block).mentions hit = false := by
  refine (Block.mentions_eq_false_iff _ _).2 ⟨fun g hg => ?_, fun g hg => ?_, fun w hw => ?_⟩
  · simpa using (List.mem_filter.1 hg).2
  · simpa using (Option.mem_filter_iff.1 hg).2
  · simpa using (List.mem_filter.1 hw).2

/-- The gangs of the other link, whose records the teardown renews at most. -/
theorem State.teardown_formed {s : State} {x : LinkId} {g : GangId} {G : Gang} (hG : s.gang g = some G)
    (hown : G.owner ≠ x) : ∃ H ∈ (s.teardown x).gang g, G.Renewed H := by
  refine (s.works_teardown x).formed g G ?_
  rw [State.tornDown_gang, if_neg (fun h => hown ((State.ownedBy_iff hG).1 h))]
  exact hG

theorem State.teardown_gone {s : State} {x : LinkId} {g : GangId} (hown : s.gang g = none ∨ s.ownedBy x g = true) :
    (s.teardown x).gang g = none := by
  refine (s.works_teardown x).free g ?_
  rw [State.tornDown_gang]
  split_ifs with h
  · rfl
  · exact hown.resolve_right h

/-- The record of a block after the teardown (R134). -/
theorem State.teardown_block {s : State} {x : LinkId} {i : SlotId} {b : Block} (hb : s.block i = some b) :
    ∃ c ∈ (s.teardown x).block i, c.place = b.place ∧ c.refs = b.refs - countNaming i (s.jobsOf (s.ownedBy x)) ∧
      c.mentions (s.ownedBy x) = false := by
  rw [State.teardown_eq]
  obtain ⟨c, hc, hplace, hrefs, hmentions⟩ :=
    (State.evaluates_block (s.touchedBy x) (s.tornDown x) i).2 _ (by rw [State.tornDown_block, hb]; rfl)
  exact ⟨c, hc, hplace, hrefs, hmentions _ (b.without_mentions ..)⟩

theorem State.teardown_block_none {s : State} {x : LinkId} {i : SlotId} (hb : s.block i = none) :
    (s.teardown x).block i = none := by
  rw [State.teardown_eq]
  exact (State.evaluates_block (s.touchedBy x) (s.tornDown x) i).1 (by rw [State.tornDown_block, hb]; rfl)

theorem State.teardown_gen (s : State) (x : LinkId) (i : SlotId) : (s.teardown x).dir[i].gen = s.dir[i].gen := by
  rw [State.teardown_eq, ((State.engine_evaluates (p := False) (s.touchedBy x) (s.tornDown x)).place i).1]
  simp [State.tornDown, State.forgetJobs, State.freeGangs, State.freeLanes]

theorem State.linkReset_other_hit {s : State} {x : LinkId} {p : PendingSync} (hsync : (s.link x.other).sync = some p)
    (hown : s.ownedBy x p.gang = true) :
    (s.linkReset x).link x.other =
      { s.link x.other with
        sync := none
        replies := replaceReservation ⟨p.tag, Code.sync, Status.gangGone.code :: u8 p.gang.val⟩ (s.link x.other).replies } := by
  have hlink := (s.onlyWork_teardown x).fields.2.2.2.2.2.2.1 x.other
  rw [State.linkReset_other, State.syncGone_hit (hlink ▸ hsync) hown, State.setLink_link_self, hlink]

theorem State.linkReset_other_none {s : State} {x : LinkId} (hsync : ∀ p ∈ (s.link x.other).sync, s.ownedBy x p.gang = false) :
    (s.linkReset x).link x.other = s.link x.other := by
  have hlink := (s.onlyWork_teardown x).fields.2.2.2.2.2.2.1 x.other
  rw [State.linkReset_other, State.syncGone_none (hlink ▸ hsync), hlink]

theorem State.linkReset_other_cases (s : State) (x : LinkId) :
    (s.linkReset x).link x.other = s.link x.other ∨
      ∃ p ∈ (s.link x.other).sync, s.ownedBy x p.gang = true ∧
        (s.linkReset x).link x.other =
          { s.link x.other with
            sync := none
            replies :=
              replaceReservation ⟨p.tag, Code.sync, Status.gangGone.code :: u8 p.gang.val⟩ (s.link x.other).replies } := by
  by_cases h : ∀ p ∈ (s.link x.other).sync, s.ownedBy x p.gang = false
  · exact .inl (State.linkReset_other_none h)
  · push Not at h
    obtain ⟨p, hp, hown⟩ := h
    rw [Bool.ne_false_iff] at hown
    exact .inr ⟨p, hp, hown, State.linkReset_other_hit hp hown⟩

/-- What a link reset does not touch, and the gap timer (R155). -/
theorem State.linkReset_fields (s : State) (x : LinkId) :
    (s.linkReset x).mode = s.mode ∧ (s.linkReset x).store = s.store ∧ (s.linkReset x).free = s.free ∧
      (s.linkReset x).pack = s.pack ∧ (s.linkReset x).pins = s.pins ∧ (s.linkReset x).nextId = s.nextId ∧
      (s.linkReset x).rate = s.rate ∧ (s.linkReset x).ssel = s.ssel ∧ (s.linkReset x).sdo = s.sdo ∧
      (s.linkReset x).silent = s.silent ∧ (s.linkReset x).gap = match x with | .a => s.gap | .b => .stopped := by
  obtain ⟨hmode, hstore, hfree, hpack, hpins, hnext, -, -, hrate, hsilent, hssel, hsdo, -⟩ := (s.onlyWork_teardown x).fields
  have hgone := State.engine_resolveSyncOf (p := False) (s.teardown x) x.other (s.ownedBy x)
    fun g => Status.gangGone.code :: u8 g.val
  have hbytes := hgone.store
  obtain ⟨hmode', hfree', hpack', hpins', hnext', -, hrate', hsilent', hssel', hsdo', -⟩ := hgone.fields
  rw [State.linkReset_only]
  refine ⟨?_, ?_, ?_, ?_, ?_, ?_, ?_, ?_, ?_, ?_, ?_⟩
  · exact (by cases x <;> rfl : _ = _).trans (hmode'.trans hmode)
  · exact (by cases x <;> rfl : _ = _).trans (hbytes.trans hstore)
  · exact (by cases x <;> rfl : _ = _).trans (hfree'.trans hfree)
  · exact (by cases x <;> rfl : _ = _).trans (hpack'.trans hpack)
  · exact (by cases x <;> rfl : _ = _).trans (hpins'.trans hpins)
  · exact (by cases x <;> rfl : _ = _).trans (hnext'.trans hnext)
  · exact (by cases x <;> rfl : _ = _).trans (hrate'.trans hrate)
  · exact (by cases x <;> rfl : _ = _).trans (hssel'.trans hssel)
  · exact (by cases x <;> rfl : _ = _).trans (hsdo'.trans hsdo)
  · exact (by cases x <;> rfl : _ = _).trans (hsilent'.trans hsilent)
  · cases x <;> rfl

/-- A link reset leaves the link's work gone (R134, R155). -/
theorem State.linkReset_workGone {s : State} (hagree : s.LanesAgree) (x : LinkId) : s.LinkWorkGone (s.linkReset x) x := by
  obtain ⟨hmode, hstore, hfree, hpack, hpins, hnext, hrate, hssel, hsdo, -⟩ := s.linkReset_fields x
  obtain ⟨a, b, gap, silent, ssel, sdo, resetn, hwires⟩ := s.wires_linkReset x
  have hgangs (g : GangId) : (s.linkReset x).gang g = (s.teardown x).gang g := by rw [hwires]; rfl
  have hdir : (s.linkReset x).dir = (s.teardown x).dir := by rw [hwires]
  have hlanes : (s.linkReset x).lanes = (s.teardown x).lanes := by rw [hwires]
  have hblock (i : SlotId) : (s.linkReset x).block i = (s.teardown x).block i := by rw [State.block, hdir]; rfl
  refine ⟨fun g G hG hown => ?_, fun g G hG hown => ?_, fun g hg => ?_, fun i g hlane hown => ?_, fun i => ⟨?_, ?_, ?_⟩,
    ?_, ?_, ?_, State.linkReset_other_none, hmode, hstore, hfree, hpack, hpins, hnext, hrate, hssel, hsdo⟩
  · exact (hgangs g).trans (State.teardown_gone (.inr ((State.ownedBy_iff hG).2 hown)))
  · obtain ⟨H, hH, ctl, beat, queue, rfl, -, hjobs⟩ := State.teardown_formed hG hown
    exact ⟨_, (hgangs g).trans hH, rfl, rfl, rfl, rfl, rfl, rfl, rfl, hjobs.map_eq fun _ => rfl⟩
  · exact (hgangs g).trans (State.teardown_gone (.inl hg))
  · rw [hlanes]
    exact State.teardown_lane hagree hlane hown
  · rw [hdir]
    exact s.teardown_gen x i
  · exact fun hb => (hblock i).trans (State.teardown_block_none hb)
  · intro b hb
    obtain ⟨c, hc, hplace, hrefs, hmentions⟩ := State.teardown_block hb
    exact ⟨c, (hblock i).trans hc, hplace, hrefs, hmentions⟩
  · rcases s.linkReset_other_cases x with h | ⟨_, _, _, h⟩ <;> rw [h]
  · rcases s.linkReset_other_cases x with h | ⟨_, _, _, h⟩ <;> rw [h]
  · intro p hsync hown
    rw [State.linkReset_other_hit hsync hown]
    exact ⟨rfl, rfl⟩

/-- The reset link itself, and its request in hand, are no part of its work. -/
theorem State.LinkWorkGone.setLink {s t : State} {x : LinkId} (h : s.LinkWorkGone t x) (l : Link) :
    s.LinkWorkGone (t.setLink x l) x := by
  cases x <;> exact h

theorem State.LinkWorkGone.of_popped {s t : State} {x : LinkId} {rest : List Request}
    (h : (s.popped x rest).LinkWorkGone t x) : s.LinkWorkGone t x := by
  cases x <;> exact h

theorem State.LinkWorkGone.silenced {s t : State} {x : LinkId} (h : s.LinkWorkGone t x) (silent : Bool) :
    s.LinkWorkGone { t with silent := silent } x := by
  cases x <;> exact h

/-- Settles O18: the teardown, the reset link's fresh values, then its reply and its notice. -/
theorem linkResetTearsDownTheLinksWork : Obligations.LinkResetTearsDownTheLinksWork := by
  refine ⟨fun s x r rest hagree htake hcode hpay => ?_, fun s hagree hmode hsilent => ?_, fun s h => ?_, fun s => rfl⟩
  · have hpopped : (s.popped x rest).LanesAgree := by
      intro i g
      rw [State.popped_lanes, State.popped_gang]
      exact hagree i g
    have hgone := (State.linkReset_workGone hpopped x).of_popped
    obtain ⟨-, -, -, -, -, -, -, -, -, hsilent, hgap⟩ := (s.popped x rest).linkReset_fields x
    set t := (s.popped x rest).linkReset x with ht
    have hinit : t.link x = .init := (s.popped x rest).linkReset_link x
    have hdone : (t.pushReply x ⟨r.tag, r.code, [0#8]⟩).notify x (.started .link .detach) =
        t.setLink x { Link.init with
          replies := [.reply ⟨r.tag, 0x04#8, [0#8]⟩], notices := [⟨0#8, 0, .started .link .detach⟩], seq := 1#8 } := by
      rw [State.pushReply_eq, hinit, State.notify_eq, State.setLink_link_self, hcode]
      cases x <;> rfl
    refine ⟨_, ?_, hgone.setLink _, State.setLink_link_self .., ?_, ?_⟩
    · rw [exec_detach, execDetach, State.take_eq htake (by simp [hcode, Code.detach]), if_pos (by rw [hpay]; rfl)]
      exact congrArg Host.Outcome.next hdone
    · exact (by cases x <;> rfl : _ = t.silent).trans (hsilent.trans (by cases x <;> rfl))
    · exact (by cases x <;> rfl : _ = t.gap).trans (hgap.trans (by cases x <;> rfl))
  · have hgone := State.linkReset_workGone hagree .b
    have hready : (s.ready && !s.silent) = true := by simp [State.ready_of hmode, hsilent]
    set t : State := { s.linkReset .b with silent := true } with ht
    have hinit : t.link .b = .init := rfl
    have hdone : t.notify .b (.started .link .break_) =
        t.setLink .b { Link.init with notices := [⟨0#8, 0, .started .link .break_⟩], seq := 1#8 } := by
      rw [State.notify_eq, hinit]
      rfl
    exact ⟨_, congrArg Host.Outcome.next ((if_pos hready).trans hdone), (hgone.silenced true).setLink _, rfl, rfl, rfl⟩
  · have hbusy : ¬ (s.ready && !s.silent) = true := by
      rcases h with h | h
      · exact fun hready => h (State.mode_of_ready (Bool.and_eq_true_iff.1 hready).1)
      · simp [h]
    exact congrArg Host.Outcome.next (if_neg hbusy)

end Sys2Proof.Machine
end

section
/-! PROOFS. The steps of a beat up to its completion (R79-R97): what they may change, for the invariants of the lanes and of
the queues. -/

namespace Sys2Proof.Machine

/-- The beat state of the active job `J` goes from `B` to `C`: it has driven when it had, a beat that is now in flight was
so or is one of a RUNNING job, and a CAPTURE beat still waits for no match. -/
structure Beat.Goes (J : Job) (B C : Beat) : Prop where
  drove : B.drove = true → C.drove = true
  flight : C.inFlight = true → B.inFlight = true ∨ J.state = .running
  patient : J.dir = .capture → B.phase ≠ some .waitMatch → C.phase ≠ some .waitMatch

theorem Beat.Goes.refl (J : Job) (B : Beat) : B.Goes J B := ⟨id, .inl, fun _ => id⟩

theorem Beat.Goes.trans {J : Job} {B C D : Beat} (h : B.Goes J C) (k : C.Goes J D) : B.Goes J D where
  drove hB := k.drove (h.drove hB)
  flight hD := (k.flight hD).elim h.flight .inr
  patient hdir hB := k.patient hdir (h.patient hdir hB)

/-- Only CTL and the beat state differ, and the beat state goes on. -/
def Gang.BeatOnly (G H : Gang) : Prop :=
  ∃ (ctl : Bool) (beat : Option Beat), H = { G with ctl := ctl, beat := beat } ∧ (G.beat = none → beat = none) ∧
    ∀ B ∈ G.beat, ∃ C ∈ beat, ∀ J ∈ G.queue.head?, B.Goes J C

theorem Gang.BeatOnly.refl (G : Gang) : G.BeatOnly G := ⟨_, _, rfl, id, fun B hB => ⟨B, hB, fun J _ => .refl J B⟩⟩

theorem Gang.BeatOnly.trans {G H K : Gang} : G.BeatOnly H → H.BeatOnly K → G.BeatOnly K := by
  rintro ⟨_, beat, rfl, hnone, hgoes⟩ ⟨_, _, rfl, hnone', hgoes'⟩
  refine ⟨_, _, rfl, fun h => hnone' (hnone h), fun B hB => ?_⟩
  obtain ⟨C, hC, hBC⟩ := hgoes B hB
  obtain ⟨D, hD, hCD⟩ := hgoes' C hC
  exact ⟨D, hD, fun J hJ => (hBC J hJ).trans (hCD J hJ)⟩

theorem Gang.BeatOnly.settings {G H : Gang} : G.BeatOnly H → H.settings = G.settings := by
  rintro ⟨_, _, rfl, -⟩
  rfl

theorem State.heldOff_congr {s t : State} (hpins : t.pins = s.pins) {G H : Gang} (hset : H.settings = G.settings) :
    t.heldOff H = s.heldOff G := by
  simp only [Gang.settings, Prod.mk.injEq] at hset
  obtain ⟨-, hfirst, hwidth, hcfg, -⟩ := hset
  simp only [State.heldOff, Gang.lanes, Gang.has, hfirst, hwidth, hcfg, hpins]

/-- Drivers that may be enabled may still be so. -/
theorem Gang.BeatOnly.mayDrive {s t : State} (hpins : t.pins = s.pins) {G H : Gang} (h : G.BeatOnly H)
    (hmay : s.MayDrive G) : t.MayDrive H := by
  have hheld : t.heldOff H = s.heldOff G := State.heldOff_congr hpins h.settings
  obtain ⟨ctl, beat, rfl, -, hgoes⟩ := h
  obtain ⟨hfree, hwhy⟩ := hmay
  refine ⟨hheld.trans hfree, hwhy.imp id (Or.imp id ?_)⟩
  rintro ⟨hsend, hdrove⟩
  refine ⟨hsend, ?_⟩
  obtain ⟨B, hB, hBd⟩ := (Option.any_eq_true _ _).1 hdrove
  obtain ⟨J, hJ, -⟩ := (Option.any_eq_true _ _).1 hsend
  obtain ⟨C, hC, hBC⟩ := hgoes B hB
  exact (Option.any_eq_true _ _).2 ⟨C, hC, (hBC J hJ).drove hBd⟩

/-- No active SEND job of the gang is held off. -/
def State.Clear (s : State) (g : GangId) : Prop :=
  ∀ (G : Gang) (J : Job) (later : List Job) (B : Beat), s.Active g G J later B → J.dir = .send → s.heldOff G = false

/-- A step of a beat of gang `g`: another gang keeps its record and its lanes, and drivers are enabled only where they may
be. -/
structure BeatStep (g : GangId) (s t : State) : Prop where
  only : ∃ (store : Mem) (lanes : Vector Lane 10) (gangs : Vector (Option Gang) 8),
    t = { s with store := store, lanes := lanes, gangs := gangs }
  others : ∀ k, k ≠ g → t.gang k = s.gang k
  free : s.gang g = none → t.gang g = none
  record : ∀ G ∈ s.gang g, ∃ H ∈ t.gang g, G.BeatOnly H
  lane : ∀ i : LaneId, (∀ G ∈ s.gang g, G.has i.val = false) → t.lanes[i] = s.lanes[i]
  drives : s.Clear g → ∀ i : LaneId, t.lanes[i].enabled = true → s.lanes[i].enabled = true ∨ ∃ H ∈ t.gang g, t.MayDrive H

section
variable {g : GangId} {s t u : State}

theorem BeatStep.refl (g : GangId) (s : State) : BeatStep g s s :=
  ⟨⟨_, _, _, rfl⟩, fun _ _ => rfl, id, fun G hG => ⟨G, hG, .refl G⟩, fun _ _ => rfl, fun _ _ => .inl⟩

theorem BeatStep.pins (h : BeatStep g s t) : t.pins = s.pins := by
  obtain ⟨_, _, _, rfl⟩ := h.only
  rfl

theorem BeatStep.dir (h : BeatStep g s t) : t.dir = s.dir := by
  obtain ⟨_, _, _, rfl⟩ := h.only
  rfl

/-- An active job stays, and its beat goes on. -/
theorem BeatStep.active (h : BeatStep g s t) {G : Gang} {J : Job} {later : List Job} {B : Beat}
    (hactive : s.Active g G J later B) :
    ∃ (H : Gang) (C : Beat), t.Active g H J later C ∧ G.BeatOnly H ∧ B.Goes J C := by
  obtain ⟨hG, hq, hb⟩ := hactive
  obtain ⟨H, hH, hGH⟩ := h.record G hG
  have hkeep := hGH
  obtain ⟨ctl, beat, rfl, -, hgoes⟩ := hGH
  obtain ⟨C, hC, hBC⟩ := hgoes B hb
  exact ⟨_, C, ⟨hH, hq, hC⟩, hkeep, hBC J (by rw [hq]; rfl)⟩

theorem BeatStep.active_back (h : BeatStep g s t) {H : Gang} {J : Job} {later : List Job} {C : Beat}
    (hactive : t.Active g H J later C) :
    ∃ (G : Gang) (B : Beat), s.Active g G J later B ∧ G.BeatOnly H := by
  obtain ⟨hH, hq, hb⟩ := hactive
  cases hG : s.gang g with
  | none =>
    rw [h.free hG] at hH
    cases hH
  | some G =>
    obtain ⟨H', hH', hGH⟩ := h.record G hG
    obtain rfl := Option.some.inj (hH.symm.trans hH')
    have hkeep := hGH
    obtain ⟨ctl, beat, rfl, hnone, -⟩ := hGH
    cases hB : G.beat with
    | none =>
      rw [show beat = some C from hb] at hnone
      cases hnone hB
    | some B => exact ⟨G, B, ⟨hG, hq, hB⟩, hkeep⟩

theorem BeatStep.clear (h : BeatStep g s t) (hclear : s.Clear g) : t.Clear g := by
  intro H J later C hactive hdir
  obtain ⟨G, B, hback, hGH⟩ := h.active_back hactive
  exact (State.heldOff_congr h.pins hGH.settings).trans (hclear G J later B hback hdir)

theorem BeatStep.trans (h : BeatStep g s t) (k : BeatStep g t u) : BeatStep g s u where
  only := by
    obtain ⟨_, _, _, rfl⟩ := h.only
    obtain ⟨store, lanes, gangs, rfl⟩ := k.only
    exact ⟨store, lanes, gangs, rfl⟩
  others j hj := (k.others j hj).trans (h.others j hj)
  free hg := k.free (h.free hg)
  record G hG := by
    obtain ⟨H, hH, hGH⟩ := h.record G hG
    obtain ⟨K, hK, hHK⟩ := k.record H hH
    exact ⟨K, hK, hGH.trans hHK⟩
  lane i hi := by
    refine (k.lane i fun H hH => ?_).trans (h.lane i hi)
    cases hG : s.gang g with
    | none =>
      rw [h.free hG] at hH
      cases hH
    | some G =>
      obtain ⟨H', hH', hGH⟩ := h.record G hG
      obtain rfl := Option.some.inj (hH.symm.trans hH')
      rw [Gang.has_of_settings hGH.settings]
      exact hi G hG
  drives hclear i hi := by
    rcases k.drives (h.clear hclear) i hi with hi | hmay
    · rcases h.drives hclear i hi with hi | ⟨H, hH, hmay⟩
      · exact .inl hi
      · obtain ⟨K, hK, hHK⟩ := k.record H hH
        exact .inr ⟨K, hK, hHK.mayDrive k.pins hmay⟩
    · exact .inr hmay

/-! ## The small operations -/

theorem BeatStep.modGang (s : State) {g : GangId} {f : Gang → Gang} (h : ∀ G ∈ s.gang g, G.BeatOnly (f G)) :
    BeatStep g s (s.modGang g f) where
  only := ⟨_, _, _, rfl⟩
  others _ hk := State.modGang_gang_ne _ _ hk
  free hg := by rw [State.modGang_gang_self, hg]; rfl
  record G hG := ⟨f G, by rw [State.modGang_gang_self, Option.mem_def.1 hG]; rfl, h G hG⟩
  lane _ _ := rfl
  drives _ _ := .inl

theorem BeatStep.modBeat (s : State) (g : GangId) {f : Beat → Beat}
    (h : ∀ G J later B, s.Active g G J later B → B.Goes J (f B)) : BeatStep g s (s.modBeat g f) := by
  refine .modGang s fun G hG => ⟨_, _, rfl, fun hnone => by rw [hnone]; rfl, fun B hB => ?_⟩
  refine ⟨f B, by rw [Option.mem_def.1 hB]; rfl, fun J hJ => ?_⟩
  obtain ⟨later, hq⟩ := List.head?_eq_some_iff.1 hJ
  exact h G J later B ⟨hG, hq, hB⟩

theorem BeatStep.setCtl (s : State) (g : GangId) (level : Bool) : BeatStep g s (s.setCtl g level) :=
  .modGang s fun _ _ => ⟨_, _, rfl, id, fun B hB => ⟨B, hB, fun J _ => .refl J B⟩⟩

theorem BeatStep.setPhase (s : State) (g : GangId) {p : Phase} (hp : p ≠ .waitMatch) : BeatStep g s (s.setPhase g p) :=
  .modBeat s g fun _ _ _ _ _ => ⟨id, .inl, fun _ _ => by simpa using hp⟩

/-- Only a SEND beat waits for a match (R88). -/
theorem BeatStep.setPhase_send {G : Gang} {J : Job} {later : List Job} {B : Beat} (hactive : s.Active g G J later B)
    (hdir : J.dir = .send) (p : Phase) : BeatStep g s (s.setPhase g p) := by
  refine .modBeat s g fun _ J' _ _ h => ⟨id, .inl, fun hcap => ?_⟩
  obtain ⟨-, rfl, -, -⟩ := hactive.unique h
  rw [hdir] at hcap
  cases hcap

theorem BeatStep.withActive {f : Gang → Job → Beat → State}
    (h : ∀ G J later B, s.Active g G J later B → BeatStep g s (f G J B)) : BeatStep g s (s.withActive g f) :=
  withActive_cases (.refl g s) h

theorem BeatStep.store (s : State) (g : GangId) (store : Mem) : BeatStep g s { s with store := store } :=
  ⟨⟨_, _, _, rfl⟩, fun _ _ => rfl, id, fun G hG => ⟨G, hG, .refl G⟩, fun _ _ => rfl, fun _ _ => .inl⟩

theorem BeatStep.sample (s : State) (g : GangId) : BeatStep g s (s.sample g) := by
  refine .withActive fun G J later B _ => ?_
  split
  · exact .refl g s
  · exact (BeatStep.store s g _).trans
      (.modBeat _ g (f := fun B => { B with sampled := true, done := B.done + 1 }) fun _ _ _ _ _ => ⟨id, .inl, fun _ => id⟩)

section
variable {G : Gang} {J : Job} {later : List Job} {B : Beat}

/-- A drive is one of a SEND job; it enables the gang's drivers, which may be so from then on (R81). -/
theorem BeatStep.drive (hactive : s.Active g G J later B) (hdir : J.dir = .send) : BeatStep g s (s.drive g) := by
  cases hb : s.block J.slot with
  | none =>
    rw [State.drive, State.withActive_eq hactive, hb]
    exact .refl g s
  | some b =>
    have hbeat : G.BeatOnly { G with beat := some { B with drove := true } } := by
      refine ⟨G.ctl, _, rfl, fun hnone => ?_, fun B' hB' => ?_⟩
      · cases hactive.2.2.symm.trans hnone
      · obtain rfl := Option.some.inj (hactive.2.2.symm.trans hB')
        exact ⟨_, rfl, fun _ _ => ⟨fun _ => rfl, .inl, fun _ => id⟩⟩
    rw [hactive.drive hb]
    refine ⟨⟨_, _, _, rfl⟩, fun k hk => State.setGang_gang_ne _ _ hk, fun hnone => ?_, fun G' hG' => ?_, fun i hi => ?_,
      fun hclear i _ => .inr ⟨_, State.setGang_gang_self .., ?_⟩⟩
    · cases hactive.1.symm.trans hnone
    · obtain rfl := Option.some.inj (hactive.1.symm.trans hG')
      exact ⟨_, State.setGang_gang_self .., hbeat⟩
    · rw [State.setGang_lanes, State.modLanes_lane, hi G hactive.1]
      rfl
    · refine ⟨hclear G J later B hactive hdir, .inr (.inr ⟨?_, rfl⟩)⟩
      show (G.queue.head?.any fun J => J.dir == .send) = true
      rw [hactive.2.1]
      simp [hdir]

theorem BeatStep.driveAndSettle (hactive : s.Active g G J later B) (hdir : J.dir = .send) :
    BeatStep g s (s.driveAndSettle g) :=
  (BeatStep.drive hactive hdir).trans (.setPhase _ g (by decide))

end

/-! ## Up to the first wait -/

theorem BeatStep.passReady (s : State) (g : GangId) : BeatStep g s (s.passReady g) := by
  refine .withActive fun G J later B hactive => ?_
  split
  · exact .driveAndSettle hactive ‹_›
  · exact (BeatStep.setCtl s g true).trans (.setPhase _ g (by decide))

theorem BeatStep.periodStart (s : State) (g : GangId) : BeatStep g s (s.periodStart g) := by
  refine .withActive fun G J later B hactive => ?_
  have htimed : BeatStep g s (s.modBeat g fun B => { B with periodTimer := .running G.time.period }) :=
    .modBeat s g fun _ _ _ _ _ => ⟨id, .inl, fun _ => id⟩
  dsimp only
  split
  · obtain ⟨H, C, hactive', -⟩ := htimed.active hactive
    exact htimed.trans (.driveAndSettle hactive' ‹_›)
  · exact htimed.trans ((BeatStep.setCtl _ g true).trans (.setPhase _ g (by decide)))

theorem BeatStep.enterFirst (s : State) (g : GangId) : BeatStep g s (s.enterFirst g) := by
  refine .withActive fun G J later B hactive => ?_
  split
  · exact .refl g s
  · split_ifs
    · exact .setPhase s g (by decide)
    · exact .passReady s g
  · split_ifs
    · exact .setPhase s g (by decide)
    · exact .passReady s g
  · exact .setPhase s g (by decide)
  · split_ifs
    · exact .driveAndSettle hactive ‹_›
    · exact .setPhase_send hactive ‹_› _
  · exact .setPhase s g (by split_ifs <;> decide)
  · split_ifs
    · exact .setPhase s g (by decide)
    · exact .periodStart s g
  · exact .periodStart s g

/-- A beat begins only while its job is RUNNING (R79). -/
theorem BeatStep.tryBegin (s : State) (g : GangId) : BeatStep g s (s.tryBegin g) := by
  refine .withActive fun G J later B hactive => ?_
  split_ifs with hdue
  · refine .withActive fun G' J' later' B' hactive' => ?_
    obtain ⟨rfl, rfl, -, -⟩ := hactive.unique hactive'
    simp only [State.beatDue, Bool.and_eq_true, beq_iff_eq] at hdue
    obtain ⟨⟨⟨hrunning, -⟩, -⟩, -⟩ := hdue
    refine BeatStep.trans (.modBeat s g fun G'' J'' later'' B'' hactive'' => ?_) (.enterFirst _ g)
    obtain ⟨-, rfl, -, -⟩ := hactive'.unique hactive''
    exact ⟨id, fun _ => .inr hrunning, fun _ => id⟩
  · exact .refl g s

end

end Sys2Proof.Machine
end

section
/-! PROOFS. How a job leaves its queue (R123, R126-R129): the drops, the departure of the active job, and the expiry of the
beat timer. -/

namespace Sys2Proof.Machine

/-! ## Grants to other gangs -/

theorem State.handGrant_gang_ne (s : State) {g k : GangId} (hk : k ≠ g) : (s.handGrant g).gang k = s.gang k := by
  have hset (st : JobState) : (s.setJobState g st).gang k = s.gang k := State.modGang_gang_ne _ _ hk
  unfold State.handGrant
  split
  · rfl
  · split
    · exact hset _
    · exact ((BeatStep.tryBegin _ g).others k hk).trans (hset _)
    · exact ((BeatStep.tryBegin _ g).others k hk).trans (hset _)

theorem State.handGrants_gang {l : List Waiter} {g : GangId} (h : ∀ w ∈ l, w.gang ≠ g) (s : State) :
    (l.foldl (fun s v => s.handGrant v.gang) s).gang g = s.gang g := by
  induction l generalizing s with
  | nil => rfl
  | cons w ws ih =>
    rw [List.forall_mem_cons] at h
    exact (ih h.2 _).trans (s.handGrant_gang_ne h.1.symm)

/-- A gang that waits for nothing is handed nothing. -/
theorem State.evaluate_gang {s : State} {i : SlotId} {g : GangId} (h : ∀ b ∈ s.block i, ∀ w ∈ b.waiters, w.gang ≠ g) :
    (s.evaluate i).gang g = s.gang g := by
  have hcase := s.evaluate_cases i
  generalize s.evaluate i = t at hcase ⊢
  cases hcase with
  | same => rfl
  | granted hb hready readers writer run left hsplit hrecord =>
    exact State.handGrants_gang (fun w hw => h _ hb w (hsplit ▸ List.mem_append_left _ hw)) _

theorem State.evaluate_refs (s : State) (i j : SlotId) :
    ((s.evaluate i).block j).map Block.refs = (s.block j).map Block.refs := by
  obtain ⟨hnone, hsome⟩ := s.evaluate_block i j
  cases hb : s.block j with
  | none => rw [hnone hb]
  | some b =>
    obtain ⟨c, hc, hbc⟩ := hsome b hb
    rw [Option.mem_def.1 hc, Option.map_some, Option.map_some, hbc.refs]

/-- The release takes the gang's entries out of the record and hands it nothing (R31, R32). -/
theorem State.release_gang (s : State) (i : SlotId) (g : GangId) : (s.release i g).gang g = s.gang g := by
  refine State.evaluate_gang fun b hb w hw => ?_
  rw [State.modBlock_block_self] at hb
  obtain ⟨b, -, rfl⟩ := Option.map_eq_some_iff.1 hb
  simpa using (List.mem_filter.1 hw).2

theorem State.modBlock_map {α : Type} {f : Block → Block} {p : Block → α} (h : ∀ b, p (f b) = p b) (s : State)
    (i j : SlotId) : ((s.modBlock i f).block j).map p = (s.block j).map p := by
  by_cases hj : j = i
  · subst hj
    rw [State.modBlock_block_self, Option.map_map]
    exact congrArg (fun f => Option.map f _) (funext h)
  · rw [State.modBlock_block_ne _ _ hj]

theorem State.release_refs (s : State) (i : SlotId) (g : GangId) (j : SlotId) :
    ((s.release i g).block j).map Block.refs = (s.block j).map Block.refs :=
  (State.evaluate_refs _ i j).trans (State.modBlock_map (f := fun b => b.without (· == g)) (fun _ => rfl) s i j)

theorem State.release_mentions (s : State) (i : SlotId) (g : GangId) :
    ∀ b ∈ (s.release i g).block i, b.mentions (· == g) = false := by
  intro c hc
  obtain ⟨hnone, hsome⟩ := State.evaluate_block (s.modBlock i fun b => b.without (· == g)) i i
  rw [State.modBlock_block_self] at hnone hsome
  cases hb : s.block i with
  | none =>
    cases (hnone (by rw [hb]; rfl)).symm.trans hc
  | some b =>
    obtain ⟨c', hc', hbc⟩ := hsome (b.without (· == g)) (by rw [hb]; rfl)
    obtain rfl := Option.some.inj (Option.mem_def.1 hc' |>.symm.trans hc)
    exact hbc.mentions _ (b.without_mentions (· == g) b.refs)

/-- One job fewer names the slot. -/
theorem State.unref_refs (s : State) (i j : SlotId) :
    ((s.unref i).block j).map Block.refs = (s.block j).map fun b => b.refs - if i = j then 1 else 0 := by
  by_cases hj : j = i
  · subst hj
    rw [State.unref, State.modBlock_block_self, Option.map_map, if_pos rfl]
    rfl
  · rw [State.unref, State.modBlock_block_ne _ _ hj, if_neg (Ne.symm hj)]
    rfl

/-! ## Notices one after another -/

theorem State.notify_bodies {s : State} {x : LinkId} (h : (s.link x).notices.length < 16) (body : NoticeBody) :
    ((s.notify x body).link x).notices.map Notice.body = (s.link x).notices.map Notice.body ++ [body] := by
  rw [State.notify_eq, State.setLink_link_self, if_pos h]
  simp

/-- A gang's notice goes to its owner's link. -/
theorem State.notifyOwner_eq {s : State} {g : GangId} {G : Gang} (hG : s.gang g = some G) (body : NoticeBody) :
    s.notifyOwner g body = s.notify G.owner body := by
  rw [State.notifyOwner, hG]

theorem State.notify_gang (s : State) (x : LinkId) (body : NoticeBody) (g : GangId) : (s.notify x body).gang g = s.gang g := by
  rw [State.gang, State.notify_gangs]
  rfl

theorem State.notify_block (s : State) (x : LinkId) (body : NoticeBody) (i : SlotId) :
    (s.notify x body).block i = s.block i := by
  rw [State.block, State.notify_dir]
  rfl

/-! ## Drops (R126) -/

/-- What the drop of `jobs` leaves of the state `s`, in which the gang's record is `G`. -/
structure Dropped (s t : State) (g : GangId) (G : Gang) (cause : Nat) (jobs : List Job) : Prop where
  gang : t.gang g = some { G with last := if jobs = [] then G.last else .dropped }
  others : ∀ k, k ≠ g → t.gang k = s.gang k
  lanes : t.lanes = s.lanes
  blocks : ∀ i, t.block i = (s.block i).map fun b => { b with refs := b.refs - countNaming i jobs }
  kept : ∀ y : LinkId, (t.link y).intake = (s.link y).intake ∧ (t.link y).sync = (s.link y).sync ∧
    (t.link y).replies = (s.link y).replies
  other : t.link G.owner.other = s.link G.owner.other
  bodies : (s.link G.owner).notices.length + jobs.length ≤ 16 →
    (t.link G.owner).notices.map Notice.body =
      (s.link G.owner).notices.map Notice.body ++ jobs.map fun K => .jobDropped K.id g cause

theorem countNaming_cons (i : SlotId) (K : Job) (jobs : List Job) :
    countNaming i (K :: jobs) = (if K.slot = i then 1 else 0) + countNaming i jobs := by
  unfold countNaming
  by_cases h : K.slot = i
  · simp [h, Nat.add_comm]
  · simp [h]

theorem State.dropJobs_cons {s : State} {g : GangId} {G : Gang} (hG : s.gang g = some G) (cause : Nat) (K : Job)
    (jobs : List Job) :
    s.dropJobs g cause (K :: jobs) =
      (((s.unref K.slot).setGang g (some { G with last := .dropped })).notify G.owner (.jobDropped K.id g cause)).dropJobs
        g cause jobs := by
  have hlast : (s.unref K.slot).setLast g .dropped = (s.unref K.slot).setGang g (some { G with last := .dropped }) :=
    State.modGang_eq (s := s.unref K.slot) hG _
  rw [State.dropJobs, List.foldl_cons, hlast, State.notifyOwner_eq (State.setGang_gang_self ..)]
  rfl

theorem LinkId.other_ne (x : LinkId) : x.other ≠ x := by cases x <;> decide

theorem State.dropJobs_dropped {s : State} {g : GangId} {G : Gang} (hG : s.gang g = some G) (cause : Nat)
    (jobs : List Job) : Dropped s (s.dropJobs g cause jobs) g G cause jobs := by
  induction jobs generalizing s G with
  | nil =>
    exact ⟨hG, fun _ _ => rfl, rfl, fun i => by simp [State.dropJobs, countNaming], fun _ => ⟨rfl, rfl, rfl⟩, rfl,
      fun _ => by simp [State.dropJobs]⟩
  | cons K jobs ih =>
    rw [State.dropJobs_cons hG]
    set u := (s.unref K.slot).setGang g (some { G with last := .dropped }) with hu
    have hlink (y : LinkId) : u.link y = s.link y := by rw [hu, State.setGang_link]; exact State.modBlock_link ..
    have hgang : (u.notify G.owner (.jobDropped K.id g cause)).gang g = some { G with last := .dropped } := by
      rw [State.notify_gang]
      exact State.setGang_gang_self ..
    obtain ⟨hg, hothers, hlanes, hblocks, hkept, hother, hbodies⟩ := ih hgang
    refine ⟨?_, fun k hk => ?_, ?_, fun i => ?_, fun y => ?_, ?_, fun hroom => ?_⟩
    · rw [hg]
      simp
    · rw [hothers k hk, State.notify_gang, hu, State.setGang_gang_ne _ _ hk]
      rfl
    · rw [hlanes, State.notify_lanes]
      rfl
    · rw [hblocks, State.notify_block, countNaming_cons]
      show Option.map _ ((s.unref K.slot).block i) = _
      by_cases hi : i = K.slot
      · subst hi
        rw [State.unref, State.modBlock_block_self, Option.map_map, if_pos rfl]
        simp [Function.comp_def, Nat.sub_sub]
      · rw [State.unref, State.modBlock_block_ne _ _ hi, if_neg (Ne.symm hi), Nat.zero_add]
    · obtain ⟨hintake, hsync, hreplies⟩ := hkept y
      obtain ⟨hintake', hsync', hreplies'⟩ := u.notify_link_kept G.owner y (.jobDropped K.id g cause)
      rw [hlink] at hintake' hsync' hreplies'
      exact ⟨hintake.trans hintake', hsync.trans hsync', hreplies.trans hreplies'⟩
    · rw [hother, State.notify_link_ne _ _ (LinkId.other_ne _), hlink]
    · rw [List.length_cons] at hroom
      have hone := State.notify_bodies (s := u) (x := G.owner) (by rw [hlink]; omega) (.jobDropped K.id g cause)
      rw [hlink] at hone
      have hlen := congrArg List.length hone
      rw [List.length_map, List.length_append, List.length_map, List.length_singleton] at hlen
      rw [hbodies (by dsimp only; omega), hone]
      simp

/-! ## The departure of the active job (R123) -/

/-- The jobs that are dropped behind the active job, and those that stay (R126). -/
def dropsOf (o : LastOutcome) (later : List Job) : List Job := if o = .done then [] else later.takeWhile Job.afterOk

def keepOf (o : LastOutcome) (later : List Job) : List Job := if o = .done then later else later.dropWhile Job.afterOk

/-- The active job is out of the queue and its entries are out of the record (R123 steps 1 and 2). -/
def State.removeHead (s : State) (g : GangId) (J : Job) (keep : List Job) : State :=
  ((s.modGang g fun G => { G with queue := keep, beat := none }).release J.slot g).unref J.slot

/-- The departure up to its last step (R123 steps 1 to 4). -/
def State.departing (s : State) (g : GangId) (J : Job) (later : List Job) (o : LastOutcome) (notice : Option NoticeBody) :
    State :=
  (notice.elim ((s.removeHead g J (keepOf o later)).setLast g o)
    (((s.removeHead g J (keepOf o later)).setLast g o).notifyOwner g)).dropJobs g J.id (dropsOf o later)

theorem State.departHead_eq {s : State} {g : GangId} {G : Gang} {J : Job} {later : List Job} (hG : s.gang g = some G)
    (hq : G.queue = J :: later) (o : LastOutcome) (notice : Option NoticeBody) :
    s.departHead g o notice =
      (s.departing g J later o notice).finishDeparture g (J.dir == .send && G.beat.any Beat.drove) := by
  simp only [State.departHead, hG, hq]
  cases notice <;> rfl

/-- What the departure has done before its last step. -/
structure Departing (s t : State) (g : GangId) (G : Gang) (J : Job) (later : List Job) (o : LastOutcome)
    (notice : Option NoticeBody) : Prop where
  gang : t.gang g = some
    { G with queue := keepOf o later, beat := none, last := if dropsOf o later = [] then o else .dropped }
  refs : ∀ i, (t.block i).map Block.refs =
    (s.block i).map fun b => b.refs - ((J :: dropsOf o later).filter fun K => K.slot == i).length
  mentions : ∀ b ∈ t.block J.slot, b.mentions (· == g) = false
  kept : ∀ y : LinkId, (t.link y).intake = (s.link y).intake ∧ (t.link y).sync = (s.link y).sync ∧
    (t.link y).replies = (s.link y).replies
  other : t.link G.owner.other = s.link G.owner.other
  bodies : (s.link G.owner).notices.length + notice.toList.length + (dropsOf o later).length ≤ 16 →
    (t.link G.owner).notices.map Notice.body =
      (s.link G.owner).notices.map Notice.body ++ notice.toList ++ (dropsOf o later).map fun K => .jobDropped K.id g J.id

section
variable {s : State} {g : GangId} {G : Gang} {J : Job} {later : List Job}

theorem State.onlyWork_removeHead (s : State) (g : GangId) (J : Job) (keep : List Job) :
    OnlyWork s (s.removeHead g J keep) :=
  ((s.onlyGangs_modGang g _).work.trans (State.onlyWork_release _ _ g)).trans (State.onlyWork_modBlock _ _ _)

theorem State.removeHead_gang (hG : s.gang g = some G) (J : Job) (keep : List Job) :
    (s.removeHead g J keep).gang g = some { G with queue := keep, beat := none } := by
  show ((s.modGang g _).release J.slot g).gang g = _
  rw [State.release_gang, State.modGang_gang_self, hG]
  rfl

theorem State.removeHead_refs (s : State) (g : GangId) (J : Job) (keep : List Job) (i : SlotId) :
    ((s.removeHead g J keep).block i).map Block.refs =
      (s.block i).map fun b => b.refs - if J.slot = i then 1 else 0 := by
  have hbefore := State.release_refs (s.modGang g fun G => { G with queue := keep, beat := none }) J.slot g i
  have hmap {o : Option Block} (n : Nat) : (o.map fun b => b.refs - n) = (o.map Block.refs).map (· - n) := by
    rw [Option.map_map]
    rfl
  rw [State.removeHead, State.unref_refs, hmap, hbefore, hmap]
  rfl

theorem State.removeHead_mentions (s : State) (g : GangId) (J : Job) (keep : List Job) :
    ∀ b ∈ (s.removeHead g J keep).block J.slot, b.mentions (· == g) = false := by
  intro c hc
  rw [State.removeHead, State.unref, State.modBlock_block_self] at hc
  obtain ⟨b, hb, rfl⟩ := Option.map_eq_some_iff.1 hc
  exact State.release_mentions _ _ _ b hb

theorem State.departing_spec (hG : s.gang g = some G) (later : List Job) (o : LastOutcome) (notice : Option NoticeBody) :
    Departing s (s.departing g J later o notice) g G J later o notice := by
  set H : Gang := { G with queue := keepOf o later, beat := none, last := o } with hH
  set u := (s.removeHead g J (keepOf o later)).setLast g o with hu
  have hgang : u.gang g = some H := by
    rw [hu, State.setLast, State.modGang_gang_self, State.removeHead_gang hG]
    rfl
  have hlink (y : LinkId) : u.link y = s.link y := by
    rw [hu, State.setLast, State.modGang_link]
    exact (s.onlyWork_removeHead g J _).fields.2.2.2.2.2.2.1 y
  obtain ⟨v, hv, hvgang, hvblock, hvkept, hvother, hvbodies⟩ : ∃ v, v = notice.elim u (u.notifyOwner g) ∧
      v.gang g = some H ∧ (∀ i, v.block i = u.block i) ∧
      (∀ y : LinkId, (v.link y).intake = (s.link y).intake ∧ (v.link y).sync = (s.link y).sync ∧
        (v.link y).replies = (s.link y).replies) ∧
      v.link G.owner.other = s.link G.owner.other ∧
      ((s.link G.owner).notices.length + notice.toList.length ≤ 16 →
        (v.link G.owner).notices.map Notice.body = (s.link G.owner).notices.map Notice.body ++ notice.toList) := by
    refine ⟨_, rfl, ?_⟩
    cases notice with
    | none =>
      exact ⟨hgang, fun _ => rfl, fun y => by rw [Option.elim, hlink]; exact ⟨rfl, rfl, rfl⟩, hlink _,
        fun _ => by rw [Option.elim, hlink]; simp⟩
    | some body =>
      rw [Option.elim, State.notifyOwner_eq hgang]
      refine ⟨by rwa [State.notify_gang], fun i => State.notify_block .., fun y => ?_, ?_, fun hroom => ?_⟩
      · obtain ⟨hintake, hsync, hreplies⟩ := u.notify_link_kept H.owner y body
        rw [hlink] at hintake hsync hreplies
        exact ⟨hintake, hsync, hreplies⟩
      · rw [State.notify_link_ne _ _ (LinkId.other_ne G.owner), hlink]
      · rw [State.notify_bodies (by rw [hlink]; exact Nat.lt_of_succ_le hroom), hlink]
        rfl
  have hdropped := State.dropJobs_dropped hvgang J.id (dropsOf o later)
  have hdeparting : s.departing g J later o notice = v.dropJobs g J.id (dropsOf o later) := by rw [hv]; rfl
  rw [hdeparting]
  refine ⟨hdropped.gang, fun i => ?_, fun c hc => ?_, fun y => ?_, hdropped.other.trans hvother, fun hroom => ?_⟩
  · have hrefs := s.removeHead_refs g J (keepOf o later) i
    have hcount : ((J :: dropsOf o later).filter fun K => K.slot == i).length =
        (if J.slot = i then 1 else 0) + countNaming i (dropsOf o later) := countNaming_cons i J _
    rw [hdropped.blocks, hvblock, Option.map_map, hcount]
    calc ((u.block i).map fun b => b.refs - countNaming i (dropsOf o later))
        = (((s.removeHead g J (keepOf o later)).block i).map Block.refs).map (· - countNaming i (dropsOf o later)) := by
          rw [Option.map_map]; rfl
      _ = _ := by
          rw [hrefs, Option.map_map]
          simp only [Function.comp_def, Nat.sub_sub]
  · rw [hdropped.blocks, hvblock] at hc
    obtain ⟨b, hb, rfl⟩ := Option.map_eq_some_iff.1 hc
    exact s.removeHead_mentions g J _ b hb
  · obtain ⟨hintake, hsync, hreplies⟩ := hdropped.kept y
    obtain ⟨hintake', hsync', hreplies'⟩ := hvkept y
    exact ⟨hintake.trans hintake', hsync.trans hsync', hreplies.trans hreplies'⟩
  · have hone := hvbodies (by omega)
    have hlen := congrArg List.length hone
    rw [List.length_map, List.length_append, List.length_map] at hlen
    rw [hdropped.bodies (by rw [show H.owner = G.owner from rfl]; omega), ← hone]

end

/-! ## The last step of a departure -/

theorem State.resolveSyncOf_link_ne (s : State) {x y : LinkId} (hy : y ≠ x) (hit : GangId → Bool)
    (payload : GangId → List Byte) : (s.resolveSyncOf x hit payload).link y = s.link y := by
  unfold State.resolveSyncOf
  split
  · rfl
  · split_ifs
    · rw [State.resolveSync_eq ‹_›, State.setLink_link_ne _ _ hy]
    · rfl

/-- The link of a SYNC that is answered keeps its intake and its notices, and the reply stands in the reservation's
place (R153). -/
theorem State.resolveSyncOf_link (s : State) (x : LinkId) (hit : GangId → Bool) (payload : GangId → List Byte) :
    ((s.resolveSyncOf x hit payload).link x).intake = (s.link x).intake ∧
      ((s.resolveSyncOf x hit payload).link x).notices = (s.link x).notices ∧
      ((s.link x).sync = none → (s.resolveSyncOf x hit payload).link x = s.link x) ∧
      ∀ p ∈ (s.link x).sync, hit p.gang = true →
        ((s.resolveSyncOf x hit payload).link x).sync = none ∧
          ((s.resolveSyncOf x hit payload).link x).replies =
            replaceReservation ⟨p.tag, Code.sync, payload p.gang⟩ (s.link x).replies := by
  unfold State.resolveSyncOf
  cases hsync : (s.link x).sync with
  | none => simp
  | some q =>
    dsimp only
    split_ifs with hhit
    · rw [State.resolveSync_eq hsync, State.setLink_link_self]
      refine ⟨rfl, rfl, by simp, fun p hp _ => ?_⟩
      obtain rfl := Option.some.inj hp
      exact ⟨rfl, rfl⟩
    · refine ⟨rfl, rfl, by simp, fun p hp hpg => ?_⟩
      obtain rfl := Option.some.inj hp
      exact absurd hpg hhit

/-- A gang's queue has become empty: what either link is told (R153). -/
theorem State.syncEmptied_link {s : State} {g : GangId} {G : Gang} (hG : s.gang g = some G) (x : LinkId) :
    ((s.syncEmptied g).link x).intake = (s.link x).intake ∧
      ((s.syncEmptied g).link x).notices = (s.link x).notices ∧
      ((s.link x).sync = none → (s.syncEmptied g).link x = s.link x) ∧
      ∀ p ∈ (s.link x).sync, p.gang = g →
        ((s.syncEmptied g).link x).sync = none ∧
          ((s.syncEmptied g).link x).replies =
            replaceReservation ⟨p.tag, 0x05#8, [0#8] ++ u8 g.val ++ u8 G.last.num⟩ (s.link x).replies := by
  have hpayload : (statusOk :: (u8 g.val ++ u8 (((s.gang g).map fun G => G.last.num).getD 0))) =
      [0#8] ++ u8 g.val ++ u8 G.last.num := by
    rw [hG]
    rfl
  unfold State.syncEmptied
  dsimp only
  rw [hpayload]
  cases x with
  | a =>
    rw [State.resolveSyncOf_link_ne (x := .b) (y := .a) _ (by decide)]
    obtain ⟨hintake, hnotices, hnone, hhit⟩ := s.resolveSyncOf_link .a (· == g) fun _ => [0#8] ++ u8 g.val ++ u8 G.last.num
    exact ⟨hintake, hnotices, hnone, fun p hp hpg => hhit p hp (by simpa using hpg)⟩
  | b =>
    obtain ⟨hintake, hnotices, hnone, hhit⟩ :=
      (s.resolveSyncOf .a (· == g) fun _ => [0#8] ++ u8 g.val ++ u8 G.last.num).resolveSyncOf_link .b (· == g)
        fun _ => [0#8] ++ u8 g.val ++ u8 G.last.num
    rw [State.resolveSyncOf_link_ne (x := .a) (y := .b) _ (by decide)] at hintake hnotices hnone hhit
    exact ⟨hintake, hnotices, hnone, fun p hp hpg => hhit p hp (by simpa using hpg)⟩

theorem State.syncEmptied_wires (s : State) (g : GangId) : OnlyWires s (s.syncEmptied g) := by
  unfold State.syncEmptied
  exact (State.wires_resolveSyncOf _ .b _ _).after (s.wires_resolveSyncOf .a _ _)

/-- A PAUSING gang becomes PAUSED when its active job departs (R131). -/
def Gang.settled (G : Gang) : Gang := { G with run := if G.run = .pausing then .paused else G.run }

/-- The state of a gang whose queue has become empty, before a SYNC is answered (R67). -/
def State.rested (s : State) (g : GangId) (G : Gang) (sent : Bool) : State :=
  (s.setGang g (some { G.settled with restDrive := G.cfg.restHold && sent })).setDrivers G
    ((G.cfg.restHold && sent) && !s.heldOff G)

theorem State.finishDeparture_eq {s : State} {g : GangId} {G : Gang} (hG : s.gang g = some G) (sent : Bool) :
    s.finishDeparture g sent =
      if G.queue = [] then ((s.setGang g (some G.settled)).applyRest g sent).syncEmptied g
      else (s.setGang g (some G.settled)).activate g := by
  have hpaused : (s.modGang g fun G => { G with run := if G.run = .pausing then .paused else G.run }) =
      s.setGang g (some G.settled) := State.modGang_eq hG _
  simp only [State.finishDeparture, hpaused, State.setGang_gang_self]
  exact if_congr List.isEmpty_iff rfl rfl

theorem State.finishDeparture_empty {s : State} {g : GangId} {G : Gang} (hG : s.gang g = some G) (hq : G.queue = [])
    (sent : Bool) : s.finishDeparture g sent = (s.rested g G sent).syncEmptied g := by
  have hgang : (s.setGang g (some G.settled)).gang g = some G.settled := State.setGang_gang_self ..
  rw [State.finishDeparture_eq hG, if_pos hq]
  congr 1
  unfold State.applyRest
  rw [hgang]
  dsimp only
  rw [State.modGang_eq hgang, State.setGang_setGang]
  rfl

theorem State.finishDeparture_next {s : State} {g : GangId} {G : Gang} (hG : s.gang g = some G) (hq : G.queue ≠ [])
    (sent : Bool) : s.finishDeparture g sent = (s.setGang g (some G.settled)).activate g := by
  rw [State.finishDeparture_eq hG, if_neg hq]

/-! ## The activation of the new head (R122) -/

theorem Works.claim (s : State) (g : GangId) : Works s (s.claim g) := by
  refine .withActive fun G J later B _ => ?_
  split
  · exact .refl s
  · dsimp only
    split_ifs
    · exact (Works.modBlock s _ _).trans (.handGrant _ g)
    · exact (Works.modBlock s _ _).trans (.handGrant _ g)
    · exact (Works.modBlock s _ _).trans (.setJobState _ g _)

theorem State.claim_refs (s : State) (g : GangId) (i : SlotId) :
    ((s.claim g).block i).map Block.refs = (s.block i).map Block.refs := by
  have hclaim (j : SlotId) {f : Block → Block} {t : State} (ht : t.dir = (s.modBlock j f).dir)
      (hf : ∀ b, (f b).refs = b.refs) : (t.block i).map Block.refs = (s.block i).map Block.refs := by
    rw [State.block, ht]
    exact State.modBlock_map hf s j i
  refine withActive_cases (P := fun t => (t.block i).map Block.refs = (s.block i).map Block.refs) rfl
    fun G J later B _ => ?_
  split
  · rfl
  · dsimp only
    split_ifs
    · exact hclaim J.slot (State.onlyGangs_handGrant _ g).dir fun _ => rfl
    · exact hclaim J.slot (State.onlyGangs_handGrant _ g).dir fun _ => rfl
    · exact hclaim J.slot (State.onlyGangs_setJobState _ g _).dir fun _ => rfl

/-- The record of a gang whose head is activated: the settings, the last outcome, the run state and the jobs stay. -/
theorem State.activate_gang {s : State} {g : GangId} {G : Gang} (hG : s.gang g = some G) :
    ∃ (ctl restDrive : Bool) (beat : Option Beat) (queue : List Job),
      (s.activate g).gang g =
        some { G with ctl := ctl, restDrive := restDrive, beat := beat, queue := queue } ∧ SameJobs G.queue queue := by
  rw [State.activate_eq hG]
  obtain ⟨_, hH, ctl, beat, queue, rfl, -, hjobs⟩ :=
    (Works.claim ((s.setDrivers G false).setGang g (some
      { G with ctl := false, restDrive := false, beat := some Beat.init })) g).formed g _ (State.setGang_gang_self ..)
  exact ⟨ctl, false, beat, queue, hH, hjobs⟩

theorem State.activate_refs {s : State} {g : GangId} {G : Gang} (hG : s.gang g = some G) (i : SlotId) :
    ((s.activate g).block i).map Block.refs = (s.block i).map Block.refs := by
  rw [State.activate_eq hG, State.claim_refs]
  rfl

/-! ## The departure and the expiry of the beat timer -/

/-- The fields that a departure leaves alone. -/
theorem State.departHead_fields (s : State) (g : GangId) (o : LastOutcome) (notice : Option NoticeBody) :
    (∀ i : SlotId, (s.departHead g o notice).dir[i].gen = s.dir[i].gen ∧
      ((s.departHead g o notice).block i).map Block.place = (s.block i).map Block.place) ∧
      (s.departHead g o notice).store = s.store ∧ (s.departHead g o notice).free = s.free ∧
      (s.departHead g o notice).pack = s.pack ∧ (s.departHead g o notice).nextId = s.nextId ∧
      (s.departHead g o notice).pins = s.pins ∧ (s.departHead g o notice).mode = s.mode := by
  have hengine := s.engine_departHead (p := False) g o notice
  obtain ⟨hmode, hfree, hpack, hpins, hnext, -⟩ := hengine.fields
  exact ⟨hengine.place, hengine.store, hfree, hpack, hnext, hpins, hmode⟩

section
variable {s : State} {g : GangId} {G : Gang} {J : Job} {later : List Job} {o : LastOutcome}

/-- The departure of the last job ends in the rest of the gang (R67, R123 step 5). -/
theorem State.departHead_last (hG : s.gang g = some G) (hq : G.queue = J :: later) (hkeep : keepOf o later = [])
    (notice : Option NoticeBody) :
    ∃ K : Gang, (s.departing g J later o notice).gang g = some K ∧
      K = { G with queue := [], beat := none, last := if dropsOf o later = [] then o else .dropped } ∧
      s.departHead g o notice =
        ((s.departing g J later o notice).rested g K (J.dir == .send && G.beat.any Beat.drove)).syncEmptied g := by
  have hgang := (State.departing_spec hG later o notice (J := J)).gang
  rw [hkeep] at hgang
  exact ⟨_, hgang, rfl, (State.departHead_eq hG hq o notice).trans (State.finishDeparture_empty hgang rfl _)⟩

/-- The departure of an active job with a job left behind it ends in the activation of the new head. -/
theorem State.departHead_more (hG : s.gang g = some G) (hq : G.queue = J :: later) (hkeep : keepOf o later ≠ [])
    (notice : Option NoticeBody) :
    ∃ K : Gang, (s.departing g J later o notice).gang g = some K ∧
      K = { G with queue := keepOf o later, beat := none, last := if dropsOf o later = [] then o else .dropped } ∧
      s.departHead g o notice = ((s.departing g J later o notice).setGang g (some K.settled)).activate g := by
  have hgang := (State.departing_spec hG later o notice (J := J)).gang
  exact ⟨_, hgang, rfl, (State.departHead_eq hG hq o notice).trans (State.finishDeparture_next hgang hkeep _)⟩

theorem State.rested_gang (s : State) (g : GangId) (G : Gang) (sent : Bool) :
    (s.rested g G sent).gang g = some { G.settled with restDrive := G.cfg.restHold && sent } :=
  State.setGang_gang_self ..

theorem State.rested_link (s : State) (g : GangId) (G : Gang) (sent : Bool) (y : LinkId) :
    (s.rested g G sent).link y = s.link y := by
  rw [State.rested, State.setDrivers_link, State.setGang_link]

theorem State.syncEmptied_behind (s : State) (g : GangId) :
    (s.syncEmptied g).gangs = s.gangs ∧ (s.syncEmptied g).dir = s.dir ∧ (s.syncEmptied g).lanes = s.lanes := by
  obtain ⟨_, _, _, _, _, _, _, h⟩ := s.syncEmptied_wires g
  rw [h]
  exact ⟨rfl, rfl, rfl⟩

/-- What the departure of the last job leaves (R67, R123, R131, R153). -/
theorem State.departHead_last_spec (hG : s.gang g = some G) (hq : G.queue = J :: later) (hkeep : keepOf o later = [])
    (notice : Option NoticeBody) (t : State) (ht : t = s.departHead g o notice) (restDrive : Bool)
    (hrest : restDrive = (G.cfg.restHold && (J.dir == .send && G.beat.any Beat.drove))) :
    t.gang g = some
        { G with
          queue := [], beat := none, last := if dropsOf o later = [] then o else .dropped, restDrive := restDrive
          run := if G.run = .pausing then .paused else G.run } ∧
      (∀ i : LaneId, G.has i.val = true → t.lanes[i].enabled = (restDrive && !s.heldOff G)) ∧
      (∀ i, t.block i = (s.departing g J later o notice).block i) ∧
      ∀ x : LinkId, (t.link x).intake = (s.link x).intake ∧
        (t.link x).notices = ((s.departing g J later o notice).link x).notices ∧
        ((s.link x).sync = none → (t.link x).replies = (s.link x).replies) ∧
        ∀ p ∈ (s.link x).sync, p.gang = g → (t.link x).sync = none ∧
          (t.link x).replies =
            replaceReservation
              ⟨p.tag, 0x05#8, [0#8] ++ u8 g.val ++ u8 (if dropsOf o later = [] then o else .dropped).num⟩
              (s.link x).replies := by
  subst ht hrest
  obtain ⟨K, hK, hKeq, hdone⟩ := State.departHead_last (s := s) hG hq hkeep notice
  have hpins : (s.departing g J later o notice).pins = s.pins := by
    have hall := (s.departHead_fields g o notice).2.2.2.2.2.1
    rw [hdone] at hall
    obtain ⟨_, _, _, _, _, _, _, hw⟩ := ((s.departing g J later o notice).rested g K
      (J.dir == .send && G.beat.any Beat.drove)).syncEmptied_wires g
    rw [hw] at hall
    exact hall
  rw [hdone]
  set v := (s.departing g J later o notice).rested g K (J.dir == .send && G.beat.any Beat.drove) with hv
  obtain ⟨hgangs, hdir, hlanes⟩ := v.syncEmptied_behind g
  have hvgang := (s.departing g J later o notice).rested_gang g K (J.dir == .send && G.beat.any Beat.drove)
  refine ⟨?_, fun i hi => ?_, fun i => ?_, fun x => ?_⟩
  · rw [State.gang, hgangs]
    refine hvgang.trans ?_
    rw [hKeq]
    rfl
  · have hheld : (s.departing g J later o notice).heldOff K = s.heldOff G := State.heldOff_congr hpins (by rw [hKeq]; rfl)
    have hhas : K.has i.val = true := by rw [hKeq]; exact hi
    rw [hlanes, hv, State.rested, State.setDrivers_lane, if_pos hhas]
    rw [hheld, hKeq]
  · rw [State.block, hdir]
    rfl
  · obtain ⟨hintake, hnotices, hnone, hhit⟩ := State.syncEmptied_link hvgang x
    rw [State.rested_link] at hintake hnotices hnone hhit
    obtain ⟨hintake', hsync', hreplies'⟩ := (State.departing_spec hG later o notice (J := J)).kept x
    rw [hsync'] at hnone hhit
    refine ⟨hintake.trans hintake', hnotices, fun h => ?_, fun p hp hpg => ?_⟩
    · exact (congrArg Link.replies (hnone h)).trans hreplies'
    · obtain ⟨hsync, hreplies⟩ := hhit p hp hpg
      refine ⟨hsync, hreplies.trans ?_⟩
      rw [hreplies', hKeq]
      rfl

end

/-- Settles O60. -/
theorem expiryFaultsAndDepartureFollows : Obligations.ExpiryFaultsAndDepartureFollows := by
  refine ⟨fun s g G J later B phase hmode hactive hflight hrunning hphase => ?_, fun s g h => ?_, ?_⟩
  · have hdue : (B.inFlight && B.beatTimer.isRunning) = true := by rw [hflight, hrunning]; rfl
    refine congrArg Host.Outcome.next ((if_pos (State.ready_of hmode)).trans ?_)
    rw [State.beatExpired, State.withActive_eq hactive, if_pos hdue, hactive.faultJob, hphase]
    rfl
  · refine congrArg Host.Outcome.next (show (if s.ready then _ else _) = s from ?_)
    split_ifs with hready
    · refine withActive_cases (P := fun t => t = s) rfl fun G J later B hactive => if_neg ?_
      rcases h with h | h
      · exact absurd (State.mode_of_ready hready) h
      · rcases h G J later B hactive with h | h <;> simp [h, Timer.isRunning]
    · rfl
  · intro s g G J later B o notice hactive drops keep t
    obtain ⟨hG, hq, hb⟩ := hactive
    have hspec := State.departing_spec hG later o notice (J := J)
    have hfields := s.departHead_fields g o notice
    have hdrove : G.beat.any Beat.drove = B.drove := by rw [hb]; rfl
    by_cases hkeep : keepOf o later = []
    · obtain ⟨hgang, hlanes, hblocks, hlinks⟩ := State.departHead_last_spec hG hq hkeep notice t rfl _ rfl
      refine ⟨_, hgang, by rw [show keep = [] from hkeep], rfl, rfl, rfl, fun i => ?_, fun _ => ?_, fun h => absurd hkeep h,
        fun hroom => ?_, ?_, hfields⟩
      · rw [hblocks]
        exact hspec.refs i
      · refine ⟨rfl, by rw [hdrove, Bool.and_assoc], hlanes, fun b hb => ?_, fun x p hp hpg => (hlinks x).2.2.2 p hp hpg⟩
        rw [hblocks] at hb
        exact hspec.mentions b hb
      · rw [(hlinks G.owner).2.1]
        exact hspec.bodies hroom
      · rw [(hlinks _).2.1, hspec.other]
    · obtain ⟨K, hK, hKeq, hdone⟩ := State.departHead_more hG hq hkeep notice
      set u := (s.departing g J later o notice).setGang g (some K.settled) with hu
      have hugang : u.gang g = some K.settled := State.setGang_gang_self ..
      have hlink (x : LinkId) : u.link x = t.link x := by
        rw [show t = u.activate g from hdone]
        exact ((u.onlyWork_activate g).fields.2.2.2.2.2.2.1 x).symm
      have hulink (x : LinkId) : t.link x = (s.departing g J later o notice).link x := by
        rw [← hlink, hu, State.setGang_link]
      obtain ⟨ctl, rest, beat, queue, hgang, hjobs⟩ := State.activate_gang hugang
      refine ⟨_, (congrArg (State.gang · g) hdone).trans hgang, ?_, ?_, ?_, ?_, fun i => ?_, fun h => absurd h hkeep,
        fun _ => ⟨u, hdone, ?_, hspec.mentions, hlink⟩, fun hroom => ?_, ?_, hfields⟩
      · rw [show K.settled.queue = keep by rw [hKeq]; rfl] at hjobs
        exact hjobs.map_eq fun _ => rfl
      · rw [hKeq]
        rfl
      · rw [hKeq]
        rfl
      · rw [hKeq]
        rfl
      · refine (congrArg (fun t : State => (t.block i).map Block.refs) hdone).trans ?_
        rw [State.activate_refs hugang]
        exact hspec.refs i
      · rw [hugang, hKeq]
        rfl
      · rw [hulink]
        exact hspec.bodies hroom
      · rw [hulink, hspec.other]

end Sys2Proof.Machine
end

section
/-! PROOFS. CANCEL and HALT (R128, R129): the jobs that leave a queue at a request. -/

namespace Sys2Proof.Machine

theorem exec_cancel (x : LinkId) (s : State) : exec (.cancel x) s = execCancel x s := by rfl

theorem exec_halt (x : LinkId) (s : State) : exec (.halt x) s = execHalt x s := by rfl

/-! ## CANCEL of a job behind the head (R128) -/

/-- The queue without the cancelled job and the jobs dropped with it, before the drops are told (R126, R128). -/
def State.leaving (s : State) (g : GangId) (G : Gang) (before : List Job) (J : Job) (behind : List Job) : State :=
  (s.unref J.slot).setGang g (some { G with queue := before ++ behind.dropWhile Job.afterOk, last := .cancelled })

theorem State.departQueued_eq {s : State} {g : GangId} {G : Gang} (hG : s.gang g = some G) (before : List Job) (J : Job)
    (behind : List Job) :
    s.departQueued g before J behind =
      (s.leaving g G before J behind).dropJobs g J.id (behind.takeWhile Job.afterOk) := by
  unfold State.departQueued
  dsimp only
  rw [State.modGang_eq hG]
  congr 1
  refine (State.modGang_eq (s := (s.setGang g _).unref J.slot) (State.setGang_gang_self ..) _).trans ?_
  show (((s.unref J.slot).setGang g _).setGang g _) = _
  rw [State.setGang_setGang]
  rfl

/-- What the cancellation of a job behind the head leaves. -/
theorem State.departQueued_spec {s : State} {g : GangId} {G : Gang} (hG : s.gang g = some G) (before : List Job) (J : Job)
    (behind : List Job) (t : State) (ht : t = s.departQueued g before J behind) :
    t.gang g = some
        { G with
          queue := before ++ behind.dropWhile Job.afterOk
          last := if behind.takeWhile Job.afterOk = [] then .cancelled else .dropped } ∧
      (∀ k, k ≠ g → t.gang k = s.gang k) ∧
      (∀ i, t.block i = (s.block i).map fun b =>
        { b with refs := b.refs - ((J :: behind.takeWhile Job.afterOk).filter fun K => K.slot == i).length }) ∧
      t.lanes = s.lanes ∧
      (∀ y, (t.link y).intake = (s.link y).intake ∧ (t.link y).sync = (s.link y).sync ∧
        (t.link y).replies = (s.link y).replies) ∧
      t.link G.owner.other = s.link G.owner.other ∧
      ((s.link G.owner).notices.length + (behind.takeWhile Job.afterOk).length ≤ 16 →
        (t.link G.owner).notices.map Notice.body =
          (s.link G.owner).notices.map Notice.body ++
            (behind.takeWhile Job.afterOk).map fun K => .jobDropped K.id g J.id) := by
  subst ht
  rw [State.departQueued_eq hG]
  set u := s.leaving g G before J behind with hu
  have hlink (y : LinkId) : u.link y = s.link y := by rw [hu, State.leaving, State.setGang_link]; exact State.modBlock_link ..
  obtain ⟨hg, hothers, hlanes, hblocks, hkept, hother, hbodies⟩ :=
    State.dropJobs_dropped (s := u) (State.setGang_gang_self ..) J.id (behind.takeWhile Job.afterOk)
  refine ⟨hg, fun k hk => (hothers k hk).trans (State.setGang_gang_ne _ _ hk), fun i => ?_, hlanes, fun y => ?_, ?_,
    fun hroom => ?_⟩
  · have hcount := countNaming_cons i J (behind.takeWhile Job.afterOk)
    rw [hblocks]
    show Option.map _ ((s.unref J.slot).block i) = _
    rw [show ((J :: behind.takeWhile Job.afterOk).filter fun K => K.slot == i).length = _ from hcount]
    by_cases hi : i = J.slot
    · subst hi
      rw [State.unref, State.modBlock_block_self, Option.map_map, if_pos rfl]
      simp [Function.comp_def, Nat.sub_sub]
    · rw [State.unref, State.modBlock_block_ne _ _ hi, if_neg (Ne.symm hi), Nat.zero_add]
  · rw [← hlink]
    exact hkept y
  · rw [← hlink]
    exact hother
  · rw [← hlink] at hroom ⊢
    exact hbodies hroom

/-- Settles O43: the job is found by its id, and it is the active job or it stands behind it. -/
theorem cancelRemovesTheJob : Obligations.CancelRemovesTheJob := by
  intro s x r rest hi lo hids htake hcode hpay id
  have hid : be16 r.payload 0 = id := by rw [hpay]; rfl
  have hexec : exec (.cancel x) s = .next (answer x r (s.popped x rest)
      (match s.findJob id with
      | none => .refuse .noSuchJob
      | some f =>
        if f.record.owner ≠ x then .refuse .notOwner
        else .ok (u16 f.job.id ++ u32 f.done) ((s.popped x rest).cancelJob f))) := by
    rw [exec_cancel, execCancel, State.serve_eq (code := Code.cancel) htake hcode (by simp [hpay]), hid,
      State.popped_findJob] <;> rfl
  refine ⟨fun hdead => ?_, fun g G before J behind hG hqueue hJ => ?_⟩
  · rw [hexec, State.findJob_none hdead]
    exact congrArg _ (answer_refuse ..)
  · have hfound := hids.findJob hG hqueue
    rw [hJ] at hfound
    have hbytes : u16 J.id = [hi, lo] := by rw [hJ]; exact u16_be16 hi lo
    have hGp : (s.popped x rest).gang g = some G := by rwa [State.popped_gang]
    rw [hexec, hfound]
    dsimp only
    refine ⟨fun howner => ?_, fun howner hbefore => ?_, fun B howner hbefore hbeat => ?_⟩
    · rw [if_pos howner]
      exact congrArg _ (answer_refuse ..)
    · rw [if_neg (not_not.2 howner), hbytes]
      have hcancel : (s.popped x rest).cancelJob ⟨g, G, before, J, behind⟩ =
          (s.popped x rest).departQueued g before J behind := if_neg (by simpa using hbefore)
      have hdone : Found.done ⟨g, G, before, J, behind⟩ = 0 := if_neg (by simpa using hbefore)
      rw [hcancel, hdone]
      set u := (s.popped x rest).departQueued g before J behind with hu
      obtain ⟨hgang, hothers, hblocks, hlanes, hkept, hother, hbodies⟩ :=
        State.departQueued_spec hGp before J behind u hu
      have hengine : Engine False (s.popped x rest) u := State.engine_departQueued hGp hqueue
      obtain ⟨hmode, hfree, hpack, hpins, hnext, -⟩ := hengine.fields
      have hlinkx : (s.popped x rest).link x = { s.link x with intake := rest } := State.setLink_link_self ..
      have hlinko : (s.popped x rest).link x.other = s.link x.other := State.setLink_link_ne _ _ (LinkId.other_ne x)
      rw [howner] at hother hbodies
      rw [hJ] at hbodies
      refine ⟨u.pushReply x ⟨r.tag, r.code, statusOk :: ([hi, lo] ++ u32 0)⟩, rfl, ?_, fun k hk => ?_, fun i => ?_, ?_, ?_,
        ?_, ?_, ?_, ?_, ?_, ?_, ?_, ?_, fun hroom => ?_⟩
      · exact (by cases x <;> rfl : _ = u.gang g).trans hgang
      · exact (by cases x <;> rfl : _ = u.gang k).trans ((hothers k hk).trans (State.popped_gang ..))
      · refine (by cases x <;> rfl : _ = u.block i).trans ((hblocks i).trans ?_)
        rw [State.popped_block]
      · exact (by cases x <;> rfl : _ = u.lanes).trans (hlanes.trans (State.popped_lanes ..))
      · exact (by cases x <;> rfl : _ = u.store).trans (hengine.store.trans (State.popped_store ..))
      · exact (by cases x <;> rfl : _ = u.nextId).trans (hnext.trans (by cases x <;> rfl))
      · exact (by cases x <;> rfl : _ = u.free).trans (hfree.trans (State.popped_free ..))
      · exact (by cases x <;> rfl : _ = u.pack).trans (hpack.trans (State.popped_pack ..))
      · exact (by cases x <;> rfl : _ = u.pins).trans (hpins.trans (State.popped_pins ..))
      · exact (by cases x <;> rfl : _ = u.mode).trans (hmode.trans (by cases x <;> rfl))
      · rw [State.pushReply_eq, State.setLink_link_self]
        exact (hkept x).1.trans (by rw [hlinkx])
      · rw [State.pushReply_eq, State.setLink_link_self]
        dsimp only
        rw [(hkept x).2.2, hlinkx, hcode]
        rfl
      · rw [State.pushReply_eq, State.setLink_link_ne _ _ (LinkId.other_ne x), hother, hlinko]
      · rw [State.pushReply_eq, State.setLink_link_self]
        rw [hlinkx] at hbodies
        exact hbodies hroom
    · rw [if_neg (not_not.2 howner), hbytes]
      subst hbefore
      have hcancel : (s.popped x rest).cancelJob ⟨g, G, [], J, behind⟩ =
          ((s.popped x rest).setGang g (some { G with ctl := false })).departHead g .cancelled none := by
        refine (if_pos rfl).trans ?_
        rw [State.setCtl_eq hGp]
      have hdone : Found.done ⟨g, G, [], J, behind⟩ = B.done := by
        refine (if_pos rfl).trans ?_
        rw [hbeat]
        rfl
      rw [hcancel, hdone, answer, hcode]
      rfl

/-! ## HALT (R129) -/

theorem State.onlyWork_haltBehind (s : State) (g : GangId) (behind : List Job) : OnlyWork s (s.haltBehind g behind) := by
  induction behind with
  | nil => exact .refl s
  | cons K ks ih => exact (ih.trans (State.onlyWork_modBlock _ _ _)).trans (State.onlyGangs_modGang _ g _).work

theorem State.haltBehind_refs (s : State) (g : GangId) (behind : List Job) (i : SlotId) :
    ((s.haltBehind g behind).block i).map Block.refs = (s.block i).map fun b => b.refs - countNaming i behind := by
  induction behind with
  | nil => simp [State.haltBehind, countNaming]
  | cons K ks ih =>
    have hstep : (s.haltBehind g (K :: ks)).block i = ((s.haltBehind g ks).unref K.slot).block i := rfl
    have hmap (o : Option Block) (n : Nat) : (o.map fun b => b.refs - n) = (o.map Block.refs).map (· - n) := by
      rw [Option.map_map]
      rfl
    rw [hstep, State.unref_refs, hmap, ih, Option.map_map, countNaming_cons]
    refine congrArg (fun f => Option.map f _) (funext fun b => ?_)
    simp only [Function.comp_apply]
    omega

/-- A departure that tells nobody anything leaves the links alone. -/
theorem State.departing_quiet (s : State) (g : GangId) (J : Job) {later : List Job} {o : LastOutcome}
    (hdrops : dropsOf o later = []) (y : LinkId) : (s.departing g J later o none).link y = s.link y := by
  rw [State.departing, hdrops]
  show (((s.removeHead g J _).setLast g o).link y) = _
  rw [State.setLast, State.modGang_link]
  exact (s.onlyWork_removeHead g J _).fields.2.2.2.2.2.2.1 y

/-- The queue holds the active job alone, with CTL deasserted, when that job departs (R129). -/
def State.halting (s : State) (g : GangId) (G : Gang) (J : Job) (behind : List Job) : State :=
  (s.haltBehind g behind).setGang g (some
    { G with last := if behind = [] then G.last else .cancelled, queue := [J], ctl := false })

theorem State.haltGang_halting {s : State} {g : GangId} {G : Gang} (hG : s.gang g = some G) (J : Job) (behind : List Job) :
    s.haltGang g J behind = (s.halting g G J behind).departHead g .cancelled none := by
  rw [State.haltGang_eq, State.modGang_eq (State.haltBehind_gang hG behind)]
  rfl

theorem State.halting_pins (s : State) (g : GangId) (G : Gang) (J : Job) (behind : List Job) :
    (s.halting g G J behind).pins = s.pins :=
  (s.onlyWork_haltBehind g behind).fields.2.2.2.2.1

theorem State.halting_link (s : State) (g : GangId) (G : Gang) (J : Job) (behind : List Job) (y : LinkId) :
    (s.halting g G J behind).link y = s.link y := by
  rw [State.halting, State.setGang_link]
  exact (s.onlyWork_haltBehind g behind).fields.2.2.2.2.2.2.1 y

/-- What HALT of a queue that is not empty leaves (R129). -/
theorem State.haltGang_spec {s : State} {g : GangId} {G : Gang} {J : Job} {behind : List Job} (hG : s.gang g = some G)
    (hq : G.queue = J :: behind) (t : State) (ht : t = s.haltGang g J behind) (restDrive : Bool)
    (hrest : restDrive = (G.cfg.restHold && (J.dir == .send && G.beat.any Beat.drove))) :
    t.gang g = some
        { G with
          queue := [], beat := none, last := .cancelled, ctl := false, restDrive := restDrive
          run := if G.run = .pausing then .paused else G.run } ∧
      (∀ i : LaneId, G.has i.val = true → t.lanes[i].enabled = (restDrive && !s.heldOff G)) ∧
      (∀ i, (t.block i).map Block.refs = (s.block i).map fun b => b.refs - countNaming i G.queue) ∧
      ∀ x : LinkId, (t.link x).intake = (s.link x).intake ∧ (t.link x).notices = (s.link x).notices ∧
        ((s.link x).sync = none → (t.link x).replies = (s.link x).replies) ∧
        ∀ p ∈ (s.link x).sync, p.gang = g → (t.link x).sync = none ∧
          (t.link x).replies = replaceReservation ⟨p.tag, 0x05#8, [0#8] ++ u8 g.val ++ [3#8]⟩ (s.link x).replies := by
  rw [State.haltGang_halting hG] at ht
  set u := s.halting g G J behind with hu
  have hheld : u.heldOff { G with last := if behind = [] then G.last else .cancelled, queue := [J], ctl := false } =
      s.heldOff G := State.heldOff_congr (s.halting_pins g G J behind) rfl
  have hugang : u.gang g = some { G with last := if behind = [] then G.last else .cancelled, queue := [J], ctl := false } :=
    State.setGang_gang_self ..
  obtain ⟨hgang, hlanes, hblocks, hlinks⟩ :=
    State.departHead_last_spec (o := .cancelled) (later := []) hugang rfl rfl none t ht restDrive hrest
  refine ⟨hgang, fun i hi => ?_, fun i => ?_, fun x => ?_⟩
  · rw [hlanes i hi, hheld]
  · have hrefs := (State.departing_spec (J := J) hugang [] .cancelled none).refs i
    have hcount : ((J :: dropsOf .cancelled []).filter fun K => K.slot == i).length =
        (if J.slot = i then 1 else 0) + countNaming i [] := countNaming_cons i J []
    have hmap (o : Option Block) (n : Nat) : (o.map fun b => b.refs - n) = (o.map Block.refs).map (· - n) := by
      rw [Option.map_map]
      rfl
    rw [hblocks, hrefs, hcount, hmap]
    have hubefore : (u.block i).map Block.refs = _ := s.haltBehind_refs g behind i
    rw [hubefore, Option.map_map, hq, countNaming_cons]
    refine congrArg (fun f => Option.map f _) (funext fun b => ?_)
    simp only [Function.comp_apply, countNaming, List.filter_nil, List.length_nil]
    omega
  · have hlink := hlinks x
    rw [State.departing_quiet _ g J rfl, hu, State.halting_link] at hlink
    exact hlink

/-- Settles O44: the jobs behind the head leave from the tail, then the head departs. -/
theorem haltEmptiesTheQueue : Obligations.HaltEmptiesTheQueue := by
  intro s x r rest n htake hcode hpay
  have hbyte : byteAt r.payload 0 = n.toNat := by simp [hpay, byteAt]
  have hexec : exec (.halt x) s = .next (answer x r (s.popped x rest)
      (match s.gangAt n.toNat with
      | none => .refuse .noSuchGang
      | some (g, G) =>
        if G.owner ≠ x then .refuse .notOwner
        else
          match G.queue with
          | [] => .ok (u8 0) (s.popped x rest)
          | J :: behind => .ok (u8 G.queue.length) ((s.popped x rest).haltGang g J behind))) := by
    rw [exec_halt, execHalt, State.serve_eq (code := Code.halt) htake hcode (by simp [hpay]), hbyte,
      State.popped_gangAt] <;> rfl
  cases hgang : s.gangAt n.toNat with
  | none =>
    rw [hgang] at hexec
    exact hexec.trans (congrArg _ (answer_refuse ..))
  | some e =>
    obtain ⟨g, G⟩ := e
    obtain ⟨hn, hG⟩ := (State.gangAt_iff ..).1 hgang
    rw [hgang] at hexec
    dsimp only at hexec ⊢
    by_cases howner : G.owner ≠ x
    · rw [if_pos howner] at hexec ⊢
      exact hexec.trans (congrArg _ (answer_refuse ..))
    by_cases hempty : G.queue = []
    · rw [if_neg howner, hempty] at hexec
      rw [if_neg howner, if_pos hempty]
      exact hexec.trans (congrArg _ (answer_ok_same ..))
    rw [if_neg howner, if_neg hempty]
    obtain ⟨J, behind, hq⟩ := List.exists_cons_of_ne_nil hempty
    have hGp : (s.popped x rest).gang g = some G := by rwa [State.popped_gang]
    set u := (s.popped x rest).haltGang g J behind with hu
    obtain ⟨hugang, hulanes, hublocks, hulinks⟩ := State.haltGang_spec hGp hq u hu _ rfl
    have hengine : Engine False (s.popped x rest) u := State.engine_haltGang hGp hq
    obtain ⟨hmode, hfree, hpack, hpins, hnext, -⟩ := hengine.fields
    have hlinkx : (s.popped x rest).link x = { s.link x with intake := rest } := State.setLink_link_self ..
    have hlinko : (s.popped x rest).link x.other = s.link x.other := State.setLink_link_ne _ _ (LinkId.other_ne x)
    have hnotices (y : LinkId) : ((s.popped x rest).link y).notices = (s.link y).notices := by
      cases x <;> cases y <;> rfl
    refine ⟨u.pushReply x ⟨r.tag, r.code, statusOk :: u8 G.queue.length⟩,
      G.cfg.restHold && (J.dir == .send && G.beat.any Beat.drove), ?_, ?_, ?_, fun i hi => ?_, fun i => ?_,
      fun y => ?_, ?_, ?_, fun p hp hpg => ?_, ?_, ?_, ?_, ?_, ?_, ?_⟩
    · rw [hexec, if_neg howner, hq]
      rfl
    · exact (by cases x <;> rfl : _ = u.gang g).trans hugang
    · intro K hK B hB
      rw [hq] at hK
      obtain rfl := Option.some.inj hK
      rw [Option.mem_def.1 hB, Bool.and_assoc]
      rfl
    · refine (by cases x <;> rfl : _ = u.lanes[i].enabled).trans ((hulanes i hi).trans ?_)
      rw [State.popped_heldOff]
    · refine (by cases x <;> rfl : _ = (u.block i).map Block.refs).trans ((hublocks i).trans ?_)
      rw [State.popped_block]
      rfl
    · rw [← hnotices y, ← (hulinks y).2.1]
      cases x <;> cases y <;> rfl
    · rw [State.pushReply_eq, State.setLink_link_self]
      exact (hulinks x).1.trans (by rw [hlinkx])
    · rw [State.pushReply_eq, State.setLink_link_self]
      dsimp only
      rw [(hulinks x).2.2.1 (by rw [hlinkx]; exact htake.2.2.1), hlinkx, hcode]
      rfl
    · rw [State.pushReply_eq, State.setLink_link_ne _ _ (LinkId.other_ne x)]
      have hanswered := (hulinks x.other).2.2.2 p (by rw [hlinko]; exact hp) hpg
      have hg : u8 g.val = [n] := by rw [← hn]; exact u8_toNat n
      rw [hlinko, hg] at hanswered
      exact hanswered
    · exact (by cases x <;> rfl : _ = u.store).trans (hengine.store.trans (State.popped_store ..))
    · exact (by cases x <;> rfl : _ = u.free).trans (hfree.trans (State.popped_free ..))
    · exact (by cases x <;> rfl : _ = u.pack).trans (hpack.trans (State.popped_pack ..))
    · exact (by cases x <;> rfl : _ = u.nextId).trans (hnext.trans (by cases x <;> rfl))
    · exact (by cases x <;> rfl : _ = u.pins).trans (hpins.trans (State.popped_pins ..))
    · exact (by cases x <;> rfl : _ = u.mode).trans (hmode.trans (by cases x <;> rfl))

end Sys2Proof.Machine
end

section
/-! PROOFS. Lanes stay with their gangs (R55, R58, R59): the gang field of every lane and the gang records agree after every
step, and the drivers of a lane are enabled only where its gang may drive. -/

namespace Sys2Proof.Machine

/-! ## Lanes and gang records agree -/

/-- The lanes and the gang records agree, and a free lane floats. -/
structure State.LanesSound (s : State) : Prop where
  agree : s.LanesAgree
  float : s.FreeLanesFloat

section
variable {s t : State}

/-- The lane belongs to gang `g` exactly when the gang's run takes it in. -/
theorem State.LanesAgree.iff (h : s.LanesAgree) {g : GangId} {G : Gang} (hG : s.gang g = some G) (i : LaneId) :
    s.lanes[i].gang = some g ↔ G.has i.val = true := by
  rw [h i g, hG]
  simp

/-- No lane belongs to two gangs. -/
theorem State.LanesAgree.disjoint (h : s.LanesAgree) {g k : GangId} (hne : k ≠ g) {G K : Gang} (hG : s.gang g = some G)
    (hK : s.gang k = some K) {i : LaneId} (hi : K.has i.val = true) : G.has i.val = false := by
  refine Bool.eq_false_iff.2 fun hhas => hne ?_
  exact Option.some.inj (((h.iff hK i).2 hi).symm.trans ((h.iff hG i).2 hhas))

/-- The agreement looks at the gang fields of the lanes and at the gangs' runs of lanes. -/
theorem State.LanesAgree.congr (h : s.LanesAgree) (hlanes : ∀ i : LaneId, t.lanes[i].gang = s.lanes[i].gang)
    (hgangs : ∀ g : GangId, (t.gang g).map Gang.settings = (s.gang g).map Gang.settings) : t.LanesAgree := by
  intro i g
  rw [hlanes i, h i g]
  have hset := hgangs g
  cases hG : s.gang g with
  | none =>
    rw [hG, Option.map_none, Option.map_eq_none_iff] at hset
    rw [hset]
  | some G =>
    rw [hG, Option.map_some] at hset
    obtain ⟨H, hH, hHG⟩ := Option.map_eq_some_iff.1 hset
    rw [hH, Option.any_some, Option.any_some, Gang.has_of_settings hHG]

theorem State.modGang_settings (s : State) (g : GangId) {f : Gang → Gang}
    (hf : ∀ G ∈ s.gang g, (f G).settings = G.settings) (k : GangId) :
    ((s.modGang g f).gang k).map Gang.settings = (s.gang k).map Gang.settings := by
  by_cases hk : k = g
  · subst hk
    rw [State.modGang_gang_self]
    cases hG : s.gang k with
    | none => rfl
    | some G => exact congrArg some (hf G hG)
  · rw [State.modGang_gang_ne _ _ hk]

/-- Lanes of a formed gang are written, and none changes its gang. -/
theorem State.LanesSound.modLanes (h : s.LanesSound) {g : GangId} {G G' : Gang} (hG : s.gang g = some G')
    (hset : G'.settings = G.settings) {f : Nat → Lane → Lane} (hf : ∀ i l, (f i l).gang = l.gang) :
    (s.modLanes G f).LanesSound where
  agree := h.agree.congr (fun i => by rw [State.modLanes_lane]; split_ifs; exacts [hf _ _, rfl]) fun _ => rfl
  float i hi := by
    rw [State.modLanes_lane] at hi ⊢
    split_ifs at hi ⊢ with hhas
    · rw [hf] at hi
      rw [Gang.has_of_settings hset.symm, ← h.agree.iff hG, hi] at hhas
      cases hhas
    · exact h.float i hi

theorem State.LanesSound.of_table (h : s.LanesSound) (hgangs : t.gangs = s.gangs) (hlanes : t.lanes = s.lanes) :
    t.LanesSound where
  agree := h.agree.congr (fun i => by rw [hlanes]) fun g => by rw [State.gang, hgangs]; rfl
  float i hi := by
    rw [hlanes] at hi ⊢
    exact h.float i hi

/-- A gang's record is written, and the gang keeps its run of lanes. -/
theorem State.LanesSound.modGang (h : s.LanesSound) (g : GangId) {f : Gang → Gang}
    (hf : ∀ G ∈ s.gang g, (f G).settings = G.settings) : (s.modGang g f).LanesSound :=
  ⟨h.agree.congr (fun _ => rfl) (s.modGang_settings g hf), h.float⟩

end

theorem EngineWrite.lanesSound {p : Prop} {s t : State} (h : EngineWrite p s t) (hs : s.LanesSound) : t.LanesSound := by
  have hwired {u : State} (hw : OnlyWires s u) : u.LanesSound := by
    obtain ⟨_, _, _, _, _, _, _, rfl⟩ := hw
    exact ⟨hs.agree, hs.float⟩
  cases h with
  | gang g f hf => exact hs.modGang g fun G hG => (hf G hG).1
  | lanes G f hG hf =>
    obtain ⟨G', hG', hset⟩ := hG
    exact hs.modLanes hG' hset hf
  | block i f hf => exact ⟨hs.agree, hs.float⟩
  | notified x body => exact hwired (s.wires_notify x body)
  | marked x f => exact hwired (s.wires_modLink x _)
  | syncAnswered x payload => exact hwired (s.wires_resolveSync x payload)
  | bytes h a bs => exact ⟨hs.agree, hs.float⟩

theorem Engine.lanesSound {p : Prop} {s t : State} (h : Engine p s t) (hs : s.LanesSound) : t.LanesSound :=
  h.keeps (fun _ _ => EngineWrite.lanesSound) hs

/-! ## The effects on the store -/

/-- The gangs, the lanes, the pins and the mode stay. -/
structure SameTable (s t : State) : Prop where
  gangs : t.gangs = s.gangs
  lanes : t.lanes = s.lanes
  pins : t.pins = s.pins
  mode : t.mode = s.mode
  nextId : t.nextId = s.nextId

theorem SameTable.refl (s : State) : SameTable s s := ⟨rfl, rfl, rfl, rfl, rfl⟩

theorem SameTable.gang {s t : State} (h : SameTable s t) (g : GangId) : t.gang g = s.gang g := by
  rw [State.gang, h.gangs]
  rfl

theorem State.sameTable_notify (s : State) (x : LinkId) (body : NoticeBody) : SameTable s (s.notify x body) :=
  ⟨s.notify_gangs x body, s.notify_lanes x body, s.notify_pins x body, s.notify_mode x body, s.notify_nextId x body⟩

theorem State.sameTable_endPack (s : State) (stopped : Bool) : SameTable s (s.endPack stopped) := by
  unfold State.endPack
  cases s.pack.link with
  | none => exact ⟨rfl, rfl, rfl, rfl, rfl⟩
  | some x =>
    have h := s.sameTable_notify x (.packDone stopped s.pack.moves s.pack.barriers s.free.length (largestExtent s.free))
    exact ⟨h.gangs, h.lanes, h.pins, h.mode, h.nextId⟩

/-- An effect on the store leaves the gangs and the lanes alone, but for the grant evaluation behind a move (R35). -/
theorem StoreEffect.table {s t : State} (h : StoreEffect s t) :
    SameTable s t ∨ ∃ m : Move, s.pack.move = some m ∧ SameTable ((s.finishMove m).evaluate m.slot) t := by
  cases h with
  | created | destroyed | written | filled | packStarted | packStopping => exact .inl ⟨rfl, rfl, rfl, rfl, rfl⟩
  | packEnded stopped => exact .inl (s.sameTable_endPack stopped)
  | @visited i b hrun hmove hb =>
    refine .inl ?_
    unfold State.visitBlock
    split
    · exact ⟨rfl, rfl, rfl, rfl, rfl⟩
    · split_ifs <;> exact ⟨rfl, rfl, rfl, rfl, rfl⟩
  | @moved m hm =>
    refine .inr ⟨m, hm, ?_⟩
    split_ifs
    · exact State.sameTable_endPack _ true
    · exact .refl _

theorem State.sameTable_finishMove (s : State) (m : Move) : SameTable s (s.finishMove m) := ⟨rfl, rfl, rfl, rfl, rfl⟩

theorem State.LanesSound.sameTable {s t : State} (hs : s.LanesSound) (h : SameTable s t) : t.LanesSound :=
  hs.of_table h.gangs h.lanes

theorem StoreEffect.lanesSound {s t : State} (h : StoreEffect s t) (hs : s.LanesSound) : t.LanesSound := by
  rcases h.table with hsame | ⟨m, -, hsame⟩
  · exact hs.sameTable hsame
  · exact State.LanesSound.sameTable
      ((State.engine_evaluate (p := False) _ m.slot).lanesSound (hs.sameTable (s.sameTable_finishMove m))) hsame

/-! ## The effects on the gangs -/

theorem State.LanesSound.formGang {s : State} (h : s.LanesSound) (x : LinkId) {first : LaneId} {width : Nat}
    (watched : Bool) {g : GangId} (hlanes : s.laneTaken first.val width = false) (hfree : s.gang g = none) :
    (s.formGang g (newGang x first width watched)).LanesSound := by
  have hopen (i : LaneId) (hi : (newGang x first width watched).has i.val = true) : s.lanes[i].gang = none := by
    by_contra hne
    refine Bool.eq_false_iff.1 hlanes ((s.laneTaken_iff first.val width).2 ⟨i, ?_⟩)
    simpa [Gang.has, newGang, Option.isSome_iff_ne_none, and_assoc] using And.intro hi hne
  have hlane (i : LaneId) : (s.formGang g (newGang x first width watched)).lanes[i] =
      if (newGang x first width watched).has i.val then { s.lanes[i] with gang := some g, enabled := false }
      else s.lanes[i] := by
    rw [State.formGang, State.modLanes_lane]
    rfl
  have hself : (s.formGang g (newGang x first width watched)).gang g = some (newGang x first width watched) :=
    State.setGang_gang_self ..
  have hne {k : GangId} (hk : k ≠ g) : (s.formGang g (newGang x first width watched)).gang k = s.gang k :=
    State.setGang_gang_ne _ _ hk
  refine ⟨fun i k => ?_, fun i hi => ?_⟩
  · rw [hlane]
    by_cases hk : k = g
    · subst hk
      rw [hself]
      split_ifs with hhas
      · simp [hhas]
      · rw [h.agree i k, hfree]
        simp [hhas]
    · rw [hne hk]
      split_ifs with hhas
      · have hnot := (h.agree i k).not
        rw [hopen i hhas] at hnot
        exact ⟨fun e => absurd (Option.some.inj e).symm hk, fun e => absurd e (hnot.1 (by simp))⟩
      · exact h.agree i k
  · rw [hlane] at hi ⊢
    split_ifs at hi ⊢
    exact h.float i hi

theorem State.LanesSound.dissolve {s : State} (h : s.LanesSound) {g : GangId} {G : Gang} (hG : s.gang g = some G) :
    (s.dissolve g G).LanesSound := by
  have hwires : OnlyWires ((s.setGang g none).modLanes G fun _ l => l.freed) (s.dissolve g G) := State.wires_orphanEdges _ _ _
  obtain ⟨_, _, _, _, _, _, _, hw⟩ := hwires
  have hlane (i : LaneId) : ((s.setGang g none).modLanes G fun _ l => l.freed).lanes[i] =
      if G.has i.val then s.lanes[i].freed else s.lanes[i] := by
    rw [State.modLanes_lane]
    rfl
  have hfreed : ((s.setGang g none).modLanes G fun _ l => l.freed).LanesSound := by
    refine ⟨fun i k => ?_, fun i hi => ?_⟩
    · rw [hlane]
      show _ ↔ (((s.setGang g none).gang k).any _) = true
      by_cases hk : k = g
      · subst hk
        rw [State.setGang_gang_self]
        split_ifs with hhas
        · simp [Lane.freed]
        · exact iff_of_false (fun e => hhas ((h.agree.iff hG i).1 e)) (by simp)
      · rw [State.setGang_gang_ne _ _ hk]
        split_ifs with hhas
        · have hnot := (h.agree i k).not
          rw [(h.agree.iff hG i).2 hhas] at hnot
          exact ⟨fun e => by simp [Lane.freed] at e, fun e => absurd e (hnot.1 fun e => hk (Option.some.inj e).symm)⟩
        · exact h.agree i k
    · rw [hlane] at hi ⊢
      split_ifs at hi ⊢
      · rfl
      · exact h.float i hi
  rw [hw]
  exact ⟨hfreed.agree, hfreed.float⟩

theorem State.LanesSound.queued {s : State} (hs : s.LanesSound) (g : GangId) (J : Job) :
    (s.queued g J).LanesSound :=
  State.LanesSound.modGang (s := ({ s with nextId := nextCandidate J.id } : State).modBlock J.slot _)
    ⟨hs.agree, hs.float⟩ g fun _ _ => rfl

theorem GangEffect.lanesSound {s t : State} (h : GangEffect s t) (hs : s.LanesSound) : t.LanesSound := by
  cases h with
  | formed x watched hfit hlanes hfree => exact hs.formGang x watched hlanes (State.freeGang_lowest hfree).1
  | dissolved hG hqueue => exact hs.dissolve hG
  | @configured g G c hG hqueue =>
    have hset : (s.setGang g (some (G.configured c s.pins[G.first].flg))).LanesSound := by
      refine ⟨fun i k => ?_, hs.float⟩
      by_cases hk : k = g
      · subst hk
        rw [State.setGang_gang_self]
        exact (hs.agree.iff hG i).trans (by simp [Gang.has, Gang.configured])
      · rw [State.setGang_gang_ne _ _ hk]
        exact hs.agree i k
    exact hset.modLanes (State.setGang_gang_self ..) rfl fun _ _ => rfl
  | @timed g G time hG hqueue =>
    refine ⟨fun i k => ?_, hs.float⟩
    by_cases hk : k = g
    · subst hk
      rw [State.setGang_gang_self]
      exact (hs.agree.iff hG i).trans (by simp [Gang.has])
    · rw [State.setGang_gang_ne _ _ hk]
      exact hs.agree i k
  | latched bytes hG hmode => exact hs.modLanes hG rfl fun _ _ => rfl
  | sensed board => exact ⟨hs.agree, hs.float⟩
  | control level hG hmode => exact (s.engine_setCtl (p := False) _ level).lanesSound hs
  | @accepted g G b f slot gen beats hG hb hroom =>
    have hqueued := hs.queued g (newJob s.issueId f slot gen beats)
    rw [State.accept_cases]
    split_ifs
    · exact (State.engine_activate (p := False) _ g).lanesSound hqueued
    · exact hqueued
  | cancelled hf => exact (State.engine_cancelJob (p := False) hf).lanesSound hs
  | halted hG hqueue => exact (State.engine_haltGang (p := False) hG hqueue).lanesSound hs
  | paused hG => exact (s.engine_pauseGang (p := False) _ _).lanesSound hs
  | resumed hG => exact (s.engine_resumeGang (p := False) _ _).lanesSound hs
  | flgChanged i high board =>
    exact (State.engine_flgSeen _ i).lanesSound (s := (s.setFlgPin i high).senseBoard board) ⟨hs.agree, hs.float⟩
  | holdChanged i high =>
    exact (State.engine_holdSeen (p := False) _ i s).lanesSound (s := s.setHoldPin i high) ⟨hs.agree, hs.float⟩
  | settled g board hactive hdue =>
    exact (State.engine_settleDone _ g).lanesSound (s := s.senseBoard board) ⟨hs.agree, hs.float⟩
  | pulseEnded g => exact (s.engine_pulseDone (p := False) g).lanesSound hs
  | periodEnded g => exact (s.engine_periodDone (p := False) g).lanesSound hs
  | expired g => exact (s.engine_beatExpired (p := False) g).lanesSound hs

/-! ## The teardown -/

theorem State.LanesSound.tornDown {s : State} (h : s.LanesSound) (x : LinkId) : (s.tornDown x).LanesSound := by
  refine ⟨fun i k => ?_, fun i hi => ?_⟩
  · rw [State.tornDown_lane, State.tornDown_gang]
    have hk := h.agree i k
    cases hlane : s.lanes[i].gang with
    | none =>
      rw [hlane] at hk
      simp only [Option.any_none, Bool.false_eq_true, if_false]
      rw [hlane]
      split_ifs
      · simp
      · simpa using hk
    | some g =>
      rw [hlane] at hk
      by_cases hgk : g = k
      · subst hgk
        by_cases hown : s.ownedBy x g = true
        · simp [hown, Lane.freed]
        · rw [if_neg (by simpa using hown), if_neg hown, hlane]
          exact hk
      · have hnot : ¬((s.gang k).any fun G => G.has i.val) = true := fun e => hgk (Option.some.inj (hk.2 e))
        have hgone : ¬((if s.ownedBy x k = true then none else s.gang k).any fun G => G.has i.val) = true := by
          split_ifs
          · simp
          · exact hnot
        refine ⟨fun e => ?_, fun e => absurd e hgone⟩
        split_ifs at e
        · simp [Lane.freed] at e
        · exact absurd (Option.some.inj (hlane.symm.trans e)) hgk
  · rw [State.tornDown_lane] at hi ⊢
    split_ifs at hi ⊢
    · rfl
    · exact h.float i hi

theorem keptBehindLinks_lanesSound : KeptBehindLinks State.LanesSound where
  wires := by
    rintro s t ⟨_, _, _, _, _, _, _, rfl⟩ hs
    exact ⟨hs.agree, hs.float⟩
  store _ h hs := h.lanesSound hs
  gang _ h hs := h.lanesSound hs
  teardown s x hs := by
    rw [State.teardown_eq]
    exact (State.engine_evaluates (p := False) _ _).lanesSound (hs.tornDown x)
  cleared s hs := by
    refine ⟨fun i g => ?_, fun i _ => ?_⟩
    · simp [State.cleared, State.gang, Lane.freed]
    · simp [State.cleared, Lane.freed]
  restarted s rsel _ _ _ _ _ _ _ := by
    refine ⟨fun i g => ?_, fun i _ => ?_⟩
    · simp [State.fullRestart, State.gang, Lane.init]
    · simp [State.fullRestart, Lane.init]
  startupEnded _ _ hs := ⟨hs.agree, hs.float⟩
  sensed _ _ _ _ hs := ⟨hs.agree, hs.float⟩
  holdRecorded _ _ _ _ hs := ⟨hs.agree, hs.float⟩

end Sys2Proof.Machine
end

section
/-! PROOFS. The drivers of a lane (R58): each gang by itself, what a step of another gang leaves of it, and every step. -/

namespace Sys2Proof.Machine

/-! ## One gang -/

/-- The gang's beats are sound, and its lanes are driven only where they may be (R58). -/
def State.DrivesWell (s : State) (k : GangId) : Prop :=
  ∀ K ∈ s.gang k, s.BeatSound K ∧ ∀ i : LaneId, K.has i.val = true → s.lanes[i].enabled = true → s.MayDrive K

/-- What a step of another gang leaves of gang `k`. -/
structure Beside (k : GangId) (s t : State) : Prop where
  gang : t.gang k = s.gang k
  held : ∀ K ∈ s.gang k, t.heldOff K = s.heldOff K
  lanes : ∀ K ∈ s.gang k, ∀ i : LaneId, K.has i.val = true → t.lanes[i].enabled = s.lanes[i].enabled

section
variable {s t u : State} {g k : GangId}

theorem State.heldOff_of_holds {K : Gang} (h : ∀ i : LaneId, K.has i.val = true → t.pins[i].hold = s.pins[i].hold) :
    t.heldOff K = s.heldOff K := by
  rw [State.heldOff_eq, State.heldOff_eq]
  congr 2
  funext i
  by_cases hi : K.has i.val = true
  · rw [h i hi]
  · simp [hi]

theorem State.DrivesWell.beside (hs : s.DrivesWell k) (h : Beside k s t) : t.DrivesWell k := by
  intro K hK
  rw [h.gang] at hK
  obtain ⟨hbeat, hlanes⟩ := hs K hK
  have hheld := h.held K hK
  refine ⟨fun J hJ B hB => ?_, fun i hi hon => ?_⟩
  · rw [hheld]
    exact hbeat J hJ B hB
  · rw [State.MayDrive, hheld]
    exact hlanes i hi (h.lanes K hK i hi ▸ hon)

theorem Beside.of_parts (hgang : t.gang k = s.gang k) (hpins : t.pins = s.pins) (hlanes : t.lanes = s.lanes) :
    Beside k s t :=
  ⟨hgang, fun _ _ => State.heldOff_congr hpins rfl, fun _ _ _ _ => by rw [hlanes]⟩

theorem Beside.modGang (s : State) (f : Gang → Gang) (hk : k ≠ g) : Beside k s (s.modGang g f) :=
  .of_parts (State.modGang_gang_ne _ _ hk) rfl rfl

theorem Beside.setGang (s : State) (o : Option Gang) (hk : k ≠ g) : Beside k s (s.setGang g o) :=
  .of_parts (State.setGang_gang_ne _ _ hk) rfl rfl

theorem Beside.wires (h : OnlyWires s t) : Beside k s t := by
  obtain ⟨_, _, _, _, _, _, _, rfl⟩ := h
  exact .of_parts rfl rfl rfl

theorem Beside.table (h : SameTable s t) : Beside k s t := .of_parts (h.gang k) h.pins h.lanes

/-- Another gang's lanes are written: no lane belongs to two gangs. -/
theorem Beside.modLanes (hs : s.LanesAgree) {G G' : Gang} (hG : s.gang g = some G') (hset : G'.settings = G.settings)
    (hk : k ≠ g) (f : Nat → Lane → Lane) : Beside k s (s.modLanes G f) := by
  refine ⟨rfl, fun _ _ => rfl, fun K hK i hi => ?_⟩
  have hhas : G.has i.val = false := by
    rw [Gang.has_of_settings hset.symm]
    exact hs.disjoint hk hG hK hi
  rw [State.modLanes_lane, hhas]
  rfl

theorem Beside.beatStep (hs : s.LanesAgree) (h : BeatStep g s t) (hk : k ≠ g) : Beside k s t := by
  refine ⟨h.others k hk, fun _ _ => State.heldOff_congr h.pins rfl, fun K hK i hi => ?_⟩
  rw [h.lane i fun G hG => hs.disjoint hk hG hK hi]

/-- The gang's record is written, and its lanes stay. -/
theorem State.DrivesWell.modGang (hs : s.DrivesWell g) {f : Gang → Gang}
    (hf : ∀ G ∈ s.gang g, (s.BeatSound G → s.BeatSound (f G)) ∧ (s.MayDrive G → s.MayDrive (f G)) ∧
      (f G).settings = G.settings) : (s.modGang g f).DrivesWell g := by
  intro H hH
  rw [State.modGang_gang_self] at hH
  obtain ⟨G, hG, rfl⟩ := Option.map_eq_some_iff.1 hH
  obtain ⟨hbeat, hlanes⟩ := hs G hG
  obtain ⟨hsound, hmay, hset⟩ := hf G hG
  exact ⟨hsound hbeat, fun i hi hon => hmay (hlanes i (Gang.has_of_settings hset i.val ▸ hi) hon)⟩

theorem State.DrivesWell.none (h : s.gang k = none) : s.DrivesWell k := by
  intro K hK
  cases h.symm.trans hK

/-- A step of the gang's own beat, of a SEND job only while the gang is not held off. -/
theorem BeatStep.drivesWell (h : BeatStep g s t) (hclear : s.Clear g) (hs : s.DrivesWell g) : t.DrivesWell g := by
  intro H hH
  cases hG : s.gang g with
  | none =>
    rw [h.free hG] at hH
    cases hH
  | some G =>
    obtain ⟨H', hH', hGH⟩ := h.record G hG
    obtain rfl := Option.some.inj (Option.mem_def.1 hH |>.symm.trans hH')
    obtain ⟨hbeat, hlanes⟩ := hs G hG
    refine ⟨fun J hJ C hC => ?_, fun i hi hon => ?_⟩
    · obtain ⟨later, hq⟩ := List.head?_eq_some_iff.1 hJ
      obtain ⟨G', B, hactive, -⟩ := h.active_back ⟨hH, hq, hC⟩
      obtain ⟨H', C', hactive', -, hgoes⟩ := h.active hactive
      obtain ⟨-, -, -, rfl⟩ := State.Active.unique (s := t) ⟨hH, hq, hC⟩ hactive'
      obtain rfl := Option.some.inj (hactive.1.symm.trans hG)
      refine ⟨fun hdir _ hheld => ?_, fun hdir => hgoes.patient hdir ?_⟩
      · rw [State.heldOff_congr h.pins hGH.settings, hclear _ _ _ _ hactive hdir] at hheld
        cases hheld
      · exact (hbeat J (by rw [hactive.2.1]; rfl) B hactive.2.2).2 hdir
    · rcases h.drives hclear i hon with hon | ⟨H', hH', hmay⟩
      · exact hGH.mayDrive h.pins (hlanes i (Gang.has_of_settings hGH.settings i.val ▸ hi) hon)
      · obtain rfl := Option.some.inj (Option.mem_def.1 hH |>.symm.trans hH')
        exact hmay

/-- A beat in flight that hold-off has not abandoned is one of a gang that may drive. -/
theorem State.DrivesWell.clear (hs : s.DrivesWell g) {G : Gang} {J : Job} {later : List Job} {B : Beat}
    (hactive : s.Active g G J later B) (hgoes : (B.inFlight && !B.abandoned) = true) : s.Clear g := by
  intro G' J' later' B' hactive' hdir
  obtain ⟨rfl, rfl, rfl, rfl⟩ := hactive.unique hactive'
  obtain ⟨hflight, hkept⟩ := Bool.and_eq_true_iff.1 hgoes
  refine Bool.eq_false_iff.2 fun hheld => ?_
  have := ((hs _ hactive.1).1 _ (by rw [hactive.2.1]; rfl) _ hactive.2.2).1 hdir hflight hheld
  simp [this] at hkept

end

/-! ## Steps that keep every gang -/

/-- Lanes agree still, and each gang that drove well does so still. -/
def KeepsDrives (s t : State) : Prop := s.LanesSound → t.LanesSound ∧ ∀ k, s.DrivesWell k → t.DrivesWell k

section
variable {s t u : State} {g : GangId}

theorem KeepsDrives.refl (s : State) : KeepsDrives s s := fun h => ⟨h, fun _ => id⟩

theorem KeepsDrives.trans (h : KeepsDrives s t) (k : KeepsDrives t u) : KeepsDrives s u := fun hs => by
  obtain ⟨ht, hst⟩ := h hs
  obtain ⟨hu, htu⟩ := k ht
  exact ⟨hu, fun j hj => htu j (hst j hj)⟩

theorem KeepsDrives.table (h : SameTable s t) : KeepsDrives s t := fun hs =>
  ⟨hs.sameTable h, fun _ hk => hk.beside (.table h)⟩

theorem KeepsDrives.modBlock (s : State) (i : SlotId) (f : Block → Block) : KeepsDrives s (s.modBlock i f) :=
  .table ⟨rfl, rfl, rfl, rfl, rfl⟩

theorem KeepsDrives.wires (h : OnlyWires s t) : KeepsDrives s t := by
  obtain ⟨_, _, _, _, _, _, _, rfl⟩ := h
  exact .table ⟨rfl, rfl, rfl, rfl, rfl⟩

/-- A gang's record is written, and its lanes stay. -/
theorem KeepsDrives.modGang {f : Gang → Gang}
    (hf : ∀ G ∈ s.gang g, (s.BeatSound G → s.BeatSound (f G)) ∧ (s.MayDrive G → s.MayDrive (f G)) ∧
      (f G).settings = G.settings) : KeepsDrives s (s.modGang g f) := by
  refine fun hs => ⟨hs.modGang g fun G hG => (hf G hG).2.2, fun k hk => ?_⟩
  by_cases hkg : k = g
  · subst hkg
    exact hk.modGang hf
  · exact hk.beside (.modGang s f hkg)

theorem KeepsDrives.beatStep {p : Prop} (hengine : Engine p s t) (hstep : BeatStep g s t) (hclear : s.Clear g) :
    KeepsDrives s t := by
  refine fun hs => ⟨hengine.lanesSound hs, fun k hk => ?_⟩
  by_cases hkg : k = g
  · subst hkg
    exact hstep.drivesWell hclear hk
  · exact hk.beside (.beatStep hs.agree hstep hkg)

theorem KeepsDrives.tryBegin (s : State) (g : GangId) : KeepsDrives s (s.tryBegin g) := by
  refine withActive_cases (.refl s) fun G J later B hactive => ?_
  split_ifs with hdue
  · have hclear : s.Clear g := by
      intro G' J' later' B' hactive' hdir
      obtain ⟨rfl, rfl, rfl, rfl⟩ := hactive.unique hactive'
      simp only [State.beatDue, Bool.and_eq_true, Bool.or_eq_true, beq_iff_eq, Bool.not_eq_true'] at hdue
      obtain ⟨-, hcap | hheld⟩ := hdue
      · rw [hdir] at hcap
        cases hcap
      · exact hheld
    have htry : s.tryBegin g = s.beginBeat g := by rw [State.tryBegin, State.withActive_eq hactive, if_pos hdue]
    exact .beatStep (s.engine_beginBeat (p := False) g) (htry ▸ .tryBegin s g) hclear
  · exact .refl s

/-- The state of the active job says nothing about the drivers. -/
theorem KeepsDrives.setJobState (s : State) (g : GangId) (st : JobState) : KeepsDrives s (s.setJobState g st) := by
  refine .modGang fun G hG => ?_
  cases hq : G.queue with
  | nil =>
    refine ⟨fun hb J hJ => by simp at hJ, fun ⟨hheld, hwhy⟩ => ?_, rfl⟩
    rw [hq] at hwhy
    exact ⟨hheld, hwhy⟩
  | cons J later =>
    refine ⟨fun hb J' hJ' B hB => ?_, fun ⟨hheld, hwhy⟩ => ?_, rfl⟩
    · obtain rfl := Option.some.inj hJ'
      exact hb J (by rw [hq]; rfl) B hB
    · rw [hq] at hwhy
      exact ⟨hheld, hwhy⟩

theorem KeepsDrives.setCtl (s : State) (g : GangId) (level : Bool) : KeepsDrives s (s.setCtl g level) :=
  .modGang fun _ _ => ⟨id, id, rfl⟩

theorem KeepsDrives.handGrant (s : State) (g : GangId) : KeepsDrives s (s.handGrant g) := by
  unfold State.handGrant
  split
  · exact .refl s
  · split
    · exact .setJobState s g _
    · exact (KeepsDrives.setJobState s g _).trans (.tryBegin _ g)
    · exact (KeepsDrives.setJobState s g _).trans (.tryBegin _ g)

theorem KeepsDrives.handGrants (l : List Waiter) (s : State) :
    KeepsDrives s (l.foldl (fun s v => s.handGrant v.gang) s) := by
  induction l generalizing s with
  | nil => exact .refl s
  | cons w ws ih => exact (KeepsDrives.handGrant s w.gang).trans (ih _)

theorem KeepsDrives.evaluate (s : State) (i : SlotId) : KeepsDrives s (s.evaluate i) := by
  have hcase := s.evaluate_cases i
  generalize s.evaluate i = t at hcase ⊢
  cases hcase with
  | same => exact .refl s
  | granted =>
    have hset (o : Option Block) : KeepsDrives s (s.setBlock i o) := .table ⟨rfl, rfl, rfl, rfl, rfl⟩
    exact (hset _).trans (.handGrants _ _)

theorem KeepsDrives.evaluates (l : List SlotId) (s : State) : KeepsDrives s (l.foldl State.evaluate s) := by
  induction l generalizing s with
  | nil => exact .refl s
  | cons i is ih => exact (KeepsDrives.evaluate s i).trans (ih _)

theorem KeepsDrives.claim (s : State) (g : GangId) : KeepsDrives s (s.claim g) := by
  refine withActive_cases (.refl s) fun G J later B _ => ?_
  split
  · exact .refl s
  · dsimp only
    split_ifs
    · exact (KeepsDrives.modBlock s _ _).trans (.handGrant _ g)
    · exact (KeepsDrives.modBlock s _ _).trans (.handGrant _ g)
    · exact (KeepsDrives.modBlock s _ _).trans (.setJobState _ g _)

end

/-! ## All gangs, and all but one -/

/-- Lanes agree, and every gang drives well. -/
structure State.Well (s : State) : Prop where
  lanes : s.LanesSound
  gangs : ∀ k, s.DrivesWell k

/-- The same, but for gang `g`, whose active job departs. -/
structure State.WellBut (s : State) (g : GangId) : Prop where
  lanes : s.LanesSound
  gangs : ∀ k, k ≠ g → s.DrivesWell k

section
variable {s t : State} {g : GangId}

theorem State.Well.but (h : s.Well) (g : GangId) : s.WellBut g := ⟨h.lanes, fun k _ => h.gangs k⟩

theorem State.WellBut.all (h : s.WellBut g) (hg : s.DrivesWell g) : s.Well :=
  ⟨h.lanes, fun k => if hk : k = g then hk ▸ hg else h.gangs k hk⟩

theorem State.Well.keep (h : s.Well) (hk : KeepsDrives s t) : t.Well :=
  ⟨(hk h.lanes).1, fun k => (hk h.lanes).2 k (h.gangs k)⟩

theorem State.WellBut.keep (h : s.WellBut g) (hk : KeepsDrives s t) : t.WellBut g :=
  ⟨(hk h.lanes).1, fun k hne => (hk h.lanes).2 k (h.gangs k hne)⟩

theorem State.WellBut.modGang (h : s.WellBut g) {f : Gang → Gang} (hf : ∀ G ∈ s.gang g, (f G).settings = G.settings) :
    (s.modGang g f).WellBut g :=
  ⟨h.lanes.modGang g hf, fun _ hk => (h.gangs _ hk).beside (.modGang s f hk)⟩

theorem State.WellBut.setDrivers (h : s.WellBut g) {G G' : Gang} (hG : s.gang g = some G') (hset : G'.settings = G.settings)
    (on : Bool) : (s.setDrivers G on).WellBut g :=
  ⟨h.lanes.modLanes hG hset fun _ _ => rfl, fun _ hk => (h.gangs _ hk).beside (.modLanes h.lanes.agree hG hset hk _)⟩

/-! ## Activation and departure -/

/-- An activation floats the gang's lanes before the head claims its block (R122). -/
theorem State.WellBut.activate (h : s.WellBut g) : (s.activate g).Well := by
  cases hG : s.gang g with
  | none =>
    rw [State.activate, hG]
    exact h.all (.none hG)
  | some G =>
    rw [State.activate_eq hG]
    refine State.Well.keep ?_ (.claim _ g)
    have hfloat := (h.setDrivers hG rfl false).modGang (f := fun G => { G with ctl := false, restDrive := false, beat := some .init })
      fun _ _ => rfl
    rw [State.modGang_eq (s := s.setDrivers G false) hG] at hfloat
    refine hfloat.all fun K hK => ?_
    obtain rfl := Option.some.inj ((State.setGang_gang_self ..).symm.trans hK)
    refine ⟨fun J _ B hB => ?_, fun i hi hon => ?_⟩
    · obtain rfl := Option.some.inj hB
      exact ⟨fun _ hflight => absurd hflight (by decide), fun _ => by decide⟩
    · have hhas : G.has i.val = true := hi
      rw [State.setGang_lanes, State.setDrivers_lane, if_pos hhas] at hon
      cases hon

theorem State.WellBut.finishDeparture (h : s.WellBut g) {G : Gang} (hG : s.gang g = some G) (sent : Bool) :
    (s.finishDeparture g sent).Well := by
  have hset (H : Gang) (hH : H.settings = G.settings) : (s.setGang g (some H)).WellBut g := by
    have := h.modGang (f := fun _ => H) fun G' hG' => by
      obtain rfl := Option.some.inj (hG.symm.trans hG')
      exact hH
    rwa [State.modGang_eq hG] at this
  by_cases hq : G.queue = []
  · rw [State.finishDeparture_empty hG hq]
    refine State.Well.keep ?_ (.wires (State.syncEmptied_wires _ g))
    have hrest : (s.rested g G sent).WellBut g :=
      (hset { G.settled with restDrive := G.cfg.restHold && sent } rfl).setDrivers (State.setGang_gang_self ..) rfl _
    refine hrest.all fun K hK => ?_
    obtain rfl := Option.some.inj ((s.rested_gang g G sent).symm.trans hK)
    refine ⟨fun J hJ => ?_, fun i hi hon => ?_⟩
    · rw [show ({ G.settled with restDrive := G.cfg.restHold && sent } : Gang).queue = [] from hq] at hJ
      cases hJ
    · have hhas : G.has i.val = true := hi
      rw [State.rested, State.setDrivers_lane, if_pos hhas] at hon
      obtain ⟨hrest, hheld⟩ := Bool.and_eq_true_iff.1 hon
      exact ⟨(State.heldOff_congr rfl rfl).trans (Bool.not_eq_true' _ ▸ hheld), .inr (.inl hrest)⟩
  · rw [State.finishDeparture_next hG hq]
    exact (hset G.settled rfl).activate

theorem State.WellBut.dropJobs (h : s.WellBut g) {G : Gang} (hG : s.gang g = some G) (cause : Nat) (jobs : List Job) :
    (s.dropJobs g cause jobs).WellBut g := by
  have hengine := State.engine_dropJobs (p := False) jobs s g cause
  obtain ⟨-, -, -, hpins, -⟩ := hengine.fields
  have hdropped := State.dropJobs_dropped hG cause jobs
  exact ⟨hengine.lanesSound h.lanes,
    fun k hk => (h.gangs k hk).beside (.of_parts (hdropped.others k hk) hpins hdropped.lanes)⟩

/-- The entries leave the record, and others may be handed grants. -/
theorem State.Well.removeHead (h : s.Well) (g : GangId) (J : Job) (keep : List Job) : (s.removeHead g J keep).WellBut g := by
  have hqueue : (s.modGang g fun G => { G with queue := keep, beat := none }).WellBut g := (h.but g).modGang fun _ _ => rfl
  exact ((hqueue.keep (.modBlock _ J.slot fun b => b.without (· == g))).keep (.evaluate _ J.slot)).keep (.modBlock _ _ _)

theorem State.Well.departHead (h : s.Well) (g : GangId) (o : LastOutcome) (notice : Option NoticeBody) :
    (s.departHead g o notice).Well := by
  cases hG : s.gang g with
  | none =>
    rw [State.departHead, hG]
    exact h
  | some G =>
    cases hq : G.queue with
    | nil =>
      rw [State.departHead, hG]
      dsimp only
      rw [hq]
      exact h
    | cons J later =>
      rw [State.departHead_eq hG hq]
      refine State.WellBut.finishDeparture ?_ (State.departing_spec hG later o notice).gang _
      have hlast : ((s.removeHead g J (keepOf o later)).setLast g o).WellBut g := (h.removeHead g J _).modGang fun _ _ => rfl
      have hgang : ((s.removeHead g J (keepOf o later)).setLast g o).gang g =
          some { G with queue := keepOf o later, beat := none, last := o } := by
        rw [State.setLast, State.modGang_gang_self, State.removeHead_gang hG]
        rfl
      cases notice with
      | none => exact hlast.dropJobs hgang _ _
      | some body =>
        rw [State.departing, Option.elim, State.notifyOwner_eq hgang]
        exact (hlast.keep (.wires (State.wires_notify _ _ _))).dropJobs ((State.notify_gang ..).trans hgang) _ _

end

end Sys2Proof.Machine
end

section
/-! PROOFS. Every event and every request leaves the drivers as they may be (R58), and the statement on lanes. -/

namespace Sys2Proof.Machine

section
variable {s t : State} {g : GangId} {G : Gang} {J : Job} {later : List Job} {B : Beat}

/-! ## The end of a beat -/

/-- The beat state after a completed beat (R82): nothing is in flight, and what has driven has driven. -/
theorem KeepsDrives.nextBeat (h : s.Active g G J later B) : KeepsDrives s (s.modBeat g fun _ => B.next J) := by
  refine .modGang fun G' hG' => ?_
  obtain rfl := Option.some.inj (h.1.symm.trans hG')
  refine ⟨fun _ J' _ C hC => ?_, fun ⟨hheld, hwhy⟩ => ⟨hheld, ?_⟩, rfl⟩
  · rw [h.2.2] at hC
    obtain rfl := Option.some.inj hC
    exact ⟨fun _ hflight => absurd hflight (by simp [Beat.next]), fun _ => by simp [Beat.next]⟩
  · rw [h.2.2] at hwhy ⊢
    exact hwhy

theorem State.Well.completeBeat (h : s.Well) (g : GangId) : (s.completeBeat g).Well := by
  refine withActive_cases h fun G J later B hactive => ?_
  have hnext := h.keep (KeepsDrives.nextBeat hactive)
  dsimp only
  split
  · exact (hnext.keep (.setCtl _ g false)).departHead g _ _
  · split
    · exact hnext.keep (.tryBegin _ g)
    · exact (hnext.keep (.modGang (f := fun G => { G with run := .paused }) fun _ _ => ⟨id, id, rfl⟩)).keep
        (.setJobState _ g _)
    · exact hnext

theorem State.Well.faultJob (h : s.Well) (g : GangId) (reason : FaultReason) : (s.faultJob g reason).Well :=
  withActive_cases h fun _ _ _ _ _ => (h.keep (.setCtl s g false)).departHead g _ _

theorem State.Well.sampleAndComplete (h : s.Well) (hclear : s.Clear g) (ctl : Bool) : (s.sampleAndComplete g ctl).Well :=
  ((h.keep (.beatStep (s.engine_sample g) (.sample s g) hclear)).keep (.setCtl _ g ctl)).completeBeat g

/-! ## FLG -/

theorem State.Well.flgMoved (h : s.Well) (g : GangId) (f : Bool) : (s.flgMoved g f).Well := by
  refine withActive_cases h fun G J later B hactive => ?_
  split
  · rename_i hgoes
    have hclear : s.Clear g := (h.gangs g).clear hactive hgoes
    have hstep {t : State} (hengine : Engine True s t) (hb : BeatStep g s t) : t.Well := h.keep (.beatStep hengine hb hclear)
    split
    · split_ifs
      · exact h
      · exact hstep (s.engine_passReady g) (.passReady s g)
    · split_ifs
      · split
        · exact (h.keep (.setCtl s g false)).completeBeat g
        · exact hstep (s.engine_setPhase g _) (.setPhase s g (by decide))
      · exact h
    · rename_i hphase
      split_ifs
      · exact h.completeBeat g
      · refine hstep (s.engine_driveAndSettle g) (.driveAndSettle hactive ?_)
        cases hdir : J.dir with
        | send => rfl
        | capture =>
          have hbeat := (h.gangs g G hactive.1).1 J (by rw [hactive.2.1]; rfl) B hactive.2.2
          exact absurd hphase (hbeat.2 hdir)
      · exact h
    · split_ifs
      · exact h
      · exact hstep (s.engine_setPhase g _) (.setPhase s g (by decide))
    · split_ifs
      · exact hstep (((s.engine_sample g).trans (State.engine_setCtl _ g true)).trans (State.engine_setPhase _ g _))
          (((BeatStep.sample s g).trans (.setCtl _ g true)).trans (.setPhase _ g (by decide)))
      · exact h
    · split_ifs
      · exact h
      · exact hstep (s.engine_periodStart g) (.periodStart s g)
    · split_ifs
      · exact h.faultJob g _
      · exact h
    all_goals exact h
  · exact h

theorem State.Well.watchFlg (h : s.Well) (g : GangId) (f : Bool) : (s.watchFlg g f).Well := by
  unfold State.watchFlg
  split
  · exact h
  · split_ifs
    · refine State.Well.keep (h.keep (.modGang (g := g) (f := fun G => { G with watched := f }) fun _ _ => ⟨id, id, rfl⟩)) (.wires ?_)
      unfold State.notifyEdge
      split_ifs
      · exact State.wires_modLink _ _ _
      · exact State.wires_notify _ _ _
    · exact h

theorem State.Well.flgSeen (h : s.Well) (i : LaneId) : (s.flgSeen i).Well := by
  unfold State.flgSeen
  split
  · exact h
  · split_ifs
    · exact h.watchFlg _ _
    · exact h.flgMoved _ _
    · exact h

/-! ## The timed steps -/

theorem State.Well.settleDone (h : s.Well) (hclear : s.Clear g) : (s.settleDone g).Well := by
  refine withActive_cases h fun G J later B hactive => ?_
  have hstep {t : State} (hengine : Engine True s t) (hb : BeatStep g s t) : t.Well := h.keep (.beatStep hengine hb hclear)
  have hpulse (level : Bool) {p : Phase} (hp : p ≠ .waitMatch) : ((s.setCtl g level).setPhase g p).Well :=
    hstep ((s.engine_setCtl g level).trans (State.engine_setPhase _ g p)) ((BeatStep.setCtl s g level).trans (.setPhase _ g hp))
  have htoggled : BeatStep g s ((s.setCtl g !G.ctl).modBeat g fun B => { B with toggled := true }) :=
    (BeatStep.setCtl s g _).trans (.modBeat _ g fun _ _ _ _ _ => ⟨id, .inl, fun _ => id⟩)
  have htoggledEngine : Engine True s ((s.setCtl g !G.ctl).modBeat g fun B => { B with toggled := true }) :=
    (s.engine_setCtl g _).trans (State.engine_modBeat _ g _)
  dsimp only
  split
  · split_ifs
    · exact (h.keep (.setCtl s g false)).completeBeat g
    · exact hpulse true (by decide)
  · exact h.sampleAndComplete hclear false
  · rename_i hmode hdir
    split_ifs
    · exact (hstep htoggledEngine htoggled).completeBeat g
    · obtain ⟨H, C, hactive', -⟩ := htoggled.active hactive
      exact hstep (htoggledEngine.trans (State.engine_setPhase _ g _)) (htoggled.trans (.setPhase_send hactive' hdir _))
  · exact h.sampleAndComplete hclear _
  · exact hpulse true (by decide)
  · exact hpulse true (by decide)
  · split_ifs
    · exact hstep ((s.engine_sample g).trans (State.engine_setPhase _ g _))
        ((BeatStep.sample s g).trans (.setPhase _ g (by decide)))
    · exact hstep (s.engine_sample g) (.sample s g)
  · exact h
  · exact h

theorem State.Well.pulseDone (h : s.Well) (g : GangId) : (s.pulseDone g).Well := by
  refine withActive_cases h fun G J later B hactive => ?_
  split
  · rename_i hgoes
    have hclear : s.Clear g := (h.gangs g).clear hactive (Bool.and_eq_true_iff.1 hgoes).1
    have hlow {p : Phase} (hp : p ≠ .waitMatch) : ((s.setCtl g false).setPhase g p).Well :=
      h.keep (.beatStep (p := True) ((s.engine_setCtl g false).trans (State.engine_setPhase _ g p))
        ((BeatStep.setCtl s g false).trans (.setPhase _ g hp)) hclear)
    split
    · exact (h.keep (.setCtl s g false)).completeBeat g
    · split_ifs
      · exact (h.keep (.setCtl s g false)).completeBeat g
      · exact hlow (by decide)
    · split_ifs
      · exact hlow (by decide)
      · exact hlow (by decide)
      · exact h
    · exact h
  · exact h

theorem State.Well.periodDone (h : s.Well) (g : GangId) : (s.periodDone g).Well := by
  refine withActive_cases h fun G J later B hactive => ?_
  split_ifs with hgoes
  · exact h.completeBeat g
  · have hclear : s.Clear g := (h.gangs g).clear hactive (Bool.and_eq_true_iff.1 hgoes).1
    exact h.keep (.beatStep (p := True) (s.engine_modBeat g _) (.modBeat s g fun _ _ _ _ _ => ⟨id, .inl, fun _ => id⟩) hclear)
  · exact h
  · exact h

theorem State.Well.beatExpired (h : s.Well) (g : GangId) : (s.beatExpired g).Well := by
  refine withActive_cases h fun G J later B _ => ?_
  split_ifs
  · exact h.faultJob g _
  · exact h.faultJob g _
  · exact h

/-! ## Hold-off -/

theorem State.heldOff_setHoldPin (s : State) {i : LaneId} (high : Bool) {K : Gang} (hi : K.has i.val = false) :
    (s.setHoldPin i high).heldOff K = s.heldOff K := by
  refine State.heldOff_of_holds fun j hj => ?_
  have hne : i.val ≠ j.val := fun e => by
    rw [← e, hi] at hj
    cases hj
  simp [State.setHoldPin, hne]

theorem State.WellBut.abandonBeat (h : s.WellBut g) : (s.abandonBeat g).WellBut g := by
  refine withActive_cases (P := (State.WellBut · g)) h fun G J later B _ => ?_
  split_ifs
  · exact (h.modGang (f := fun G => { G with ctl := if G.cfg.mode = .answered then G.ctl ^^ B.toggled else false })
      fun _ _ => rfl).modGang fun _ _ => rfl
  · exact h

/-- After the abandonment no SEND beat in flight goes on, and nothing else that bears on the drivers differs (R105). -/
theorem State.abandonBeat_gang (hG : s.gang g = some G) :
    (s.abandonBeat g).lanes = s.lanes ∧ (s.abandonBeat g).pins = s.pins ∧
      ∃ H ∈ (s.abandonBeat g).gang g, H.settings = G.settings ∧ H.queue = G.queue ∧
        ∀ J ∈ G.queue.head?, ∀ C ∈ H.beat, (J.dir = .send → C.inFlight = true → C.abandoned = true) ∧
          ∃ B ∈ G.beat, C.phase = B.phase := by
  by_cases hgoes : ∃ (J : Job) (later : List Job) (B : Beat), s.Active g G J later B ∧ J.dir = .send ∧ B.inFlight = true ∧
      B.abandoned = false
  · obtain ⟨J, later, B, hactive, hdir, hflight, hkept⟩ := hgoes
    rw [hactive.abandonBeat hdir hflight hkept]
    refine ⟨rfl, rfl, _, State.setGang_gang_self .., rfl, rfl, fun J' _ C hC => ?_⟩
    obtain rfl := Option.some.inj hC
    exact ⟨fun _ _ => rfl, B, hactive.2.2, rfl⟩
  · have hother {J : Job} {later : List Job} {B : Beat} (hactive : s.Active g G J later B) :
        J.dir = .capture ∨ B.inFlight = false ∨ B.abandoned = true := by
      by_contra hne
      simp only [not_or, Bool.not_eq_false, Bool.not_eq_true] at hne
      obtain ⟨hdir, hflight, hkept⟩ := hne
      exact hgoes ⟨J, later, B, hactive, by cases hd : J.dir <;> simp_all, hflight, hkept⟩
    rw [State.abandonBeat_same fun G' J later B hactive => by
      obtain rfl := Option.some.inj (hactive.1.symm.trans hG)
      exact hother hactive]
    refine ⟨rfl, rfl, G, hG, rfl, rfl, fun J hJ C hC => ⟨fun hdir hflight => ?_, C, hC, rfl⟩⟩
    obtain ⟨later, hq⟩ := List.head?_eq_some_iff.1 hJ
    rcases hother ⟨hG, hq, hC⟩ with h | h | h
    · rw [hdir] at h
      cases h
    · rw [hflight] at h
      cases h
    · exact h

/-- A gang that becomes held off floats its lanes, whatever its drivers were before (R105). -/
theorem State.WellBut.holdBegin (h : s.WellBut g) (hG : s.gang g = some G)
    (hpatient : ∀ J ∈ G.queue.head?, ∀ B ∈ G.beat, J.dir = .capture → B.phase ≠ some .waitMatch) : (s.holdBegin g).Well := by
  rw [State.holdBegin_eq hG]
  refine (h.setDrivers hG rfl false).abandonBeat.all fun K hK => ?_
  obtain ⟨hlanes, hpins, H, hH, hset, hqueue, hbeat⟩ := State.abandonBeat_gang (s := s.setDrivers G false) hG
  obtain rfl := Option.some.inj (Option.mem_def.1 hK |>.symm.trans hH)
  refine ⟨fun J hJ C hC => ?_, fun i hi hon => ?_⟩
  · rw [hqueue] at hJ
    obtain ⟨habandoned, B, hB, hphase⟩ := hbeat J hJ C hC
    exact ⟨fun hdir hflight _ => habandoned hdir hflight, fun hdir => hphase ▸ hpatient J hJ B hB hdir⟩
  · rw [hlanes, State.setDrivers_lane, if_pos (Gang.has_of_settings hset i.val ▸ hi)] at hon
    cases hon

/-- A gang that is no longer held off goes on (R106, R108, R109). -/
theorem State.Well.holdEnd (h : s.Well) (hG : s.gang g = some G) (hheld : s.heldOff G = false) : (s.holdEnd g).Well := by
  have hclear : s.Clear g := by
    intro G' J later B hactive _
    obtain rfl := Option.some.inj (hactive.1.symm.trans hG)
    exact hheld
  unfold State.holdEnd
  rw [hG]
  dsimp only
  split
  · split_ifs
    · exact h.keep (.beatStep (p := True) ((s.engine_modBeat g _).trans (State.engine_enterFirst _ g))
        ((BeatStep.modBeat s g (f := fun B => { B with abandoned := false, toggled := false })
          fun _ _ _ _ _ => ⟨id, .inl, fun _ => id⟩).trans (.enterFirst _ g)) hclear)
    · exact h.keep (.tryBegin s g)
    · exact h
  · split_ifs with hcontinuous
    · refine ((h.but g).setDrivers hG rfl true).all fun K hK => ?_
      obtain rfl := Option.some.inj (hG.symm.trans hK)
      refine ⟨(h.gangs g _ hG).1, fun i _ _ => ⟨hheld, ?_⟩⟩
      simp only [Gang.continuous, Bool.or_eq_true, Bool.and_eq_true, beq_iff_eq] at hcontinuous
      exact hcontinuous.imp id .inl
    · exact h
  · exact h

theorem State.Well.holdChanged (h : s.Well) (i : LaneId) (high : Bool) : ((s.setHoldPin i high).holdSeen i s).Well := by
  have hlanes : (s.setHoldPin i high).LanesSound := ⟨h.lanes.agree, h.lanes.float⟩
  cases hlane : s.lanes[i].gang with
  | none =>
    rw [State.holdSeen, State.gangOfLane_free (s := s.setHoldPin i high) hlane]
    refine ⟨hlanes, fun k => (h.gangs k).beside ⟨rfl, fun K hK => s.heldOff_setHoldPin high ?_, fun _ _ _ _ => rfl⟩⟩
    refine Bool.eq_false_iff.2 fun hhas => ?_
    cases hlane.symm.trans ((h.lanes.agree.iff hK i).2 hhas)
  | some g =>
    obtain ⟨G, hG, hhas⟩ := (Option.any_eq_true _ _).1 ((h.lanes.agree i g).1 hlane)
    have hothers : (s.setHoldPin i high).WellBut g := by
      refine ⟨hlanes, fun k hk => (h.gangs k).beside ⟨rfl, fun K hK => s.heldOff_setHoldPin high ?_, fun _ _ _ _ => rfl⟩⟩
      exact h.lanes.agree.disjoint (Ne.symm hk) hK hG hhas
    obtain ⟨hbeat, hdrives⟩ := h.gangs g G hG
    rw [State.holdSeen_eq (s := s.setHoldPin i high) hlane hG]
    split_ifs with hbegin hend
    · exact hothers.holdBegin hG fun J hJ B hB => (hbeat J hJ B hB).2
    · obtain ⟨hbefore, hafter⟩ := Bool.and_eq_true_iff.1 hend
      rw [Bool.not_eq_true'] at hafter
      refine State.Well.holdEnd (hothers.all fun K hK => ?_) hG hafter
      obtain rfl := Option.some.inj (hG.symm.trans hK)
      refine ⟨fun J hJ B hB => ⟨fun _ _ hheld => ?_, (hbeat J hJ B hB).2⟩, fun j hj hon => ?_⟩
      · rw [hafter] at hheld
        cases hheld
      · have hmay := (hdrives j hj hon).1
        rw [hbefore] at hmay
        cases hmay
    · have hsame : (s.setHoldPin i high).heldOff G = s.heldOff G := by
        cases hnow : (s.setHoldPin i high).heldOff G <;> cases hthen : s.heldOff G <;> simp_all
      refine hothers.all ((h.gangs g).beside ⟨rfl, fun K hK => ?_, fun _ _ _ _ => rfl⟩)
      obtain rfl := Option.some.inj (hG.symm.trans hK)
      exact hsame

/-- A pin that is no HOLD pin bears on no driver. -/
theorem State.Well.pins (h : s.Well) {pins : Vector LanePins 10} {fresh : Nat}
    (hhold : ∀ i : LaneId, pins[i].hold = s.pins[i].hold) : ({ s with pins := pins, fresh := fresh } : State).Well :=
  ⟨⟨h.lanes.agree, h.lanes.float⟩, fun k =>
    (h.gangs k).beside ⟨rfl, fun _ _ => State.heldOff_of_holds fun i _ => hhold i, fun _ _ _ _ => rfl⟩⟩

/-! ## The requests -/

/-- The gang's record is replaced while no job is active: its beats are sound, whatever they are. -/
theorem State.WellBut.idle (h : s.WellBut g) (hG : s.gang g = some G) (hq : G.queue = [])
    (hdrives : ∀ i : LaneId, G.has i.val = true → s.lanes[i].enabled = true → s.MayDrive G) : s.Well := by
  refine h.all fun K hK => ?_
  obtain rfl := Option.some.inj (hG.symm.trans hK)
  refine ⟨fun J hJ => ?_, hdrives⟩
  rw [hq] at hJ
  cases hJ

theorem State.Well.formGang (h : s.Well) (x : LinkId) {first : LaneId} {width : Nat} (watched : Bool)
    (hlanes : s.laneTaken first.val width = false) (hfree : s.gang g = none) :
    (s.formGang g (newGang x first width watched)).Well := by
  have hsound := h.lanes.formGang x watched hlanes hfree
  have hnew : (s.formGang g (newGang x first width watched)).gang g = some (newGang x first width watched) :=
    State.setGang_gang_self ..
  have hlane (i : LaneId) : (s.formGang g (newGang x first width watched)).lanes[i] =
      if (newGang x first width watched).has i.val then { s.lanes[i] with gang := some g, enabled := false }
      else s.lanes[i] := by
    rw [State.formGang, State.modLanes_lane]
    rfl
  refine State.WellBut.idle ⟨hsound, fun k hk => (h.gangs k).beside ⟨State.setGang_gang_ne _ _ hk, fun _ _ => rfl, ?_⟩⟩
    hnew rfl fun i hi hon => ?_
  · intro K hK i hi
    have hhas := hsound.agree.disjoint hk hnew (K := K) ((State.setGang_gang_ne _ _ hk).trans hK) hi
    rw [hlane, if_neg (by rw [hhas]; decide)]
  · rw [hlane, if_pos hi] at hon
    cases hon

theorem State.Well.dissolve (h : s.Well) (hG : s.gang g = some G) : (s.dissolve g G).Well := by
  have hsound := h.lanes.dissolve hG
  have hwires : OnlyWires ((s.setGang g none).modLanes G fun _ l => l.freed) (s.dissolve g G) := State.wires_orphanEdges _ _ _
  refine ⟨hsound, fun k => ?_⟩
  refine State.DrivesWell.beside ?_ (.wires hwires)
  by_cases hk : k = g
  · subst hk
    exact .none (State.setGang_gang_self ..)
  · refine (h.gangs k).beside ⟨State.setGang_gang_ne _ _ hk, fun _ _ => rfl, fun K hK i hi => ?_⟩
    rw [State.modLanes_lane, if_neg (by rw [h.lanes.agree.disjoint hk hG hK hi]; decide)]
    rfl

/-- Nothing but the settings of a gang without a job, whose lanes stay or are driven as they then may be. -/
theorem State.WellBut.setGang (h : s.Well) (hG : s.gang g = some G) {H : Gang}
    (hrun : H.first = G.first ∧ H.width = G.width) : (s.setGang g (some H)).WellBut g := by
  obtain ⟨hfirst, hwidth⟩ := hrun
  refine ⟨⟨fun i k => ?_, h.lanes.float⟩, fun k hk => (h.gangs k).beside (.setGang s _ hk)⟩
  by_cases hk : k = g
  · subst hk
    rw [State.setGang_gang_self]
    exact (h.lanes.agree.iff hG i).trans (by simp [Gang.has, hfirst, hwidth])
  · rw [State.setGang_gang_ne _ _ hk]
    exact h.lanes.agree i k

theorem State.Well.configureGang (h : s.Well) (hG : s.gang g = some G) (hq : G.queue = []) (c : GangConfig) :
    (s.configureGang g G c).Well := by
  have hset := State.WellBut.setGang h hG (H := G.configured c s.pins[G.first].flg) ⟨rfl, rfl⟩
  refine (hset.setDrivers (State.setGang_gang_self ..) rfl _).idle (State.setGang_gang_self ..) hq fun i hi hon => ?_
  rw [State.setDrivers_lane, if_pos hi] at hon
  obtain ⟨hcontinuous, hheld⟩ := Bool.and_eq_true_iff.1 hon
  simp only [Gang.continuous, Bool.or_eq_true, Bool.and_eq_true, beq_iff_eq] at hcontinuous
  exact ⟨Bool.not_eq_true' _ ▸ hheld, hcontinuous.imp id .inl⟩

theorem State.Well.setTime (h : s.Well) (hG : s.gang g = some G) (hq : G.queue = []) (time : GangTiming) :
    (s.setGang g (some { G with time := time })).Well :=
  (State.WellBut.setGang h hG (H := { G with time := time }) ⟨rfl, rfl⟩).idle (State.setGang_gang_self ..) hq fun i hi hon => (h.gangs g G hG).2 i hi hon

theorem State.Well.latchLines (h : s.Well) (hG : s.gang g = some G) (hmode : G.cfg.mode = .manual) (bytes : List Byte) :
    (s.latchLines G bytes (G.cfg.manualOut && !s.heldOff G)).Well := by
  refine State.WellBut.all ⟨h.lanes.modLanes hG rfl fun _ _ => rfl,
    fun k hk => (h.gangs k).beside (.modLanes h.lanes.agree hG rfl hk _)⟩ fun K hK => ?_
  obtain rfl := Option.some.inj (hG.symm.trans hK)
  refine ⟨(h.gangs g _ hG).1, fun i hi hon => ?_⟩
  rw [State.latchLines, State.modLanes_lane, if_pos hi, Bool.or_eq_true] at hon
  rcases hon with hon | hon
  · obtain ⟨hout, hheld⟩ := Bool.and_eq_true_iff.1 hon
    exact ⟨Bool.not_eq_true' _ ▸ hheld, .inl ⟨hmode, hout⟩⟩
  · exact (h.gangs g _ hG).2 i hi hon

/-- A queue that keeps its head keeps what bears on the drivers. -/
theorem State.Well.setQueue (h : s.Well) {f : Gang → Gang}
    (hf : ∀ G ∈ s.gang g, (f G).queue.head? = G.queue.head? ∧ (f G).beat = G.beat ∧ (f G).restDrive = G.restDrive ∧
      (f G).settings = G.settings) : (s.modGang g f).Well := by
  refine h.keep (.modGang fun G hG => ?_)
  obtain ⟨hhead, hbeat, hrest, hset⟩ := hf G hG
  have hheld : s.heldOff (f G) = s.heldOff G := State.heldOff_congr rfl hset
  have hcfg : (f G).cfg = G.cfg := by
    simp only [Gang.settings, Prod.mk.injEq] at hset
    exact hset.2.2.2.1
  refine ⟨fun hb => ?_, fun hmay => ?_, hset⟩
  · rw [State.BeatSound, hhead, hbeat, hheld]
    exact hb
  · rw [State.MayDrive, hheld, hcfg, hrest, hhead, hbeat]
    exact hmay

theorem State.Well.unref (h : s.Well) (i : SlotId) : (s.unref i).Well := h.keep (.modBlock s i _)

theorem State.Well.setLast (h : s.Well) (g : GangId) (o : LastOutcome) : (s.setLast g o).Well :=
  h.setQueue fun _ _ => ⟨rfl, rfl, rfl, rfl⟩

theorem State.Well.accept (h : s.Well) (hG : s.gang g = some G) (J : Job) : (s.accept g J G.queue.isEmpty).Well := by
  have hnumbered : ({ s with nextId := nextCandidate J.id } : State).Well :=
    ⟨⟨h.lanes.agree, h.lanes.float⟩, fun k => (h.gangs k).beside (.of_parts rfl rfl rfl)⟩
  have hraised := hnumbered.keep (.modBlock _ J.slot fun b => { b with refs := b.refs + 1 })
  rw [State.accept_cases]
  split_ifs with hempty
  · exact ((hraised.but g).modGang (f := fun G => { G with queue := G.queue ++ [J] }) fun _ _ => rfl).activate
  · refine hraised.setQueue fun G' hG' => ⟨?_, rfl, rfl, rfl⟩
    obtain rfl := Option.some.inj (hG.symm.trans hG')
    obtain ⟨K, later, hq⟩ := List.exists_cons_of_ne_nil (mt List.isEmpty_iff.2 hempty)
    simp [hq]

theorem KeepsDrives.notifyOwner (s : State) (g : GangId) (body : NoticeBody) : KeepsDrives s (s.notifyOwner g body) := by
  unfold State.notifyOwner
  split
  · exact .refl s
  · exact .wires (s.wires_notify _ body)

theorem State.Well.dropJobs (h : s.Well) (g : GangId) (cause : Nat) (jobs : List Job) : (s.dropJobs g cause jobs).Well := by
  induction jobs generalizing s with
  | nil => exact h
  | cons K jobs ih =>
    exact ih (((h.unref K.slot).setLast g .dropped).keep (.notifyOwner _ g (.jobDropped K.id g cause)))

theorem State.Well.cancelJob (h : s.Well) {id : Nat} {f : Found} (hf : s.findJob id = some f) : (s.cancelJob f).Well := by
  obtain ⟨hG, hq, -, -⟩ := State.findJob_eq hf
  unfold State.cancelJob
  split_ifs with hempty
  · exact (h.keep (.setCtl s f.gang false)).departHead f.gang _ _
  · obtain ⟨K, before, hbefore⟩ := List.exists_cons_of_ne_nil (mt List.isEmpty_iff.2 hempty)
    have hqueue : (s.modGang f.gang fun G => { G with queue := f.before ++ f.behind.dropWhile Job.afterOk }).Well := by
      refine h.setQueue fun G hG' => ⟨?_, rfl, rfl, rfl⟩
      obtain rfl := Option.some.inj (hG.symm.trans hG')
      simp [hq, hbefore]
    exact ((hqueue.unref f.job.slot).setLast f.gang .cancelled).dropJobs f.gang f.job.id _

theorem State.Well.haltBehind (h : s.Well) (g : GangId) (behind : List Job) : (s.haltBehind g behind).Well := by
  induction behind with
  | nil => exact h
  | cons K ks ih => exact (ih.unref K.slot).setLast g _

theorem State.Well.haltGang (h : s.Well) (hG : s.gang g = some G) {behind : List Job} (hq : G.queue = J :: behind) :
    (s.haltGang g J behind).Well := by
  rw [State.haltGang_eq]
  have hqueue : ((s.haltBehind g behind).modGang g fun G => { G with queue := [J], ctl := false }).Well := by
    refine (h.haltBehind g behind).setQueue fun G' hG' => ⟨?_, rfl, rfl, rfl⟩
    obtain rfl := Option.some.inj ((State.haltBehind_gang hG behind).symm.trans hG')
    simp [hq]
  exact hqueue.departHead g _ _

theorem State.Well.setRun (h : s.Well) (g : GangId) (run : RunState) : (s.modGang g fun G => { G with run := run }).Well :=
  h.setQueue fun _ _ => ⟨rfl, rfl, rfl, rfl⟩

theorem State.Well.pauseGang (h : s.Well) (g : GangId) (G : Gang) : (s.pauseGang g G).Well := by
  unfold State.pauseGang
  split
  · exact h
  · exact h
  · split_ifs
    · exact h.setRun g _
    · dsimp only
      split
      · exact h.setRun g _
      · split_ifs
        · exact (h.setRun g _).keep (.setJobState _ g _)
        · exact h.setRun g _

theorem State.Well.resumeGang (h : s.Well) (g : GangId) (G : Gang) : (s.resumeGang g G).Well := by
  unfold State.resumeGang
  split
  · exact h
  · exact h.setRun g _
  · dsimp only
    split
    · exact h.setRun g _
    · split_ifs
      · exact ((h.setRun g _).keep (.setJobState _ g _)).keep (.tryBegin _ g)
      · exact h.setRun g _

end

/-! ## Every step -/

/-- A change of a FLG pin and a reading of the board bear on no driver. -/
theorem State.Well.flgPin {s : State} (h : s.Well) (i : LaneId) (high : Bool) (board : Board) :
    ((s.setFlgPin i high).senseBoard board).Well :=
  h.pins fun j => (congrArg LanePins.hold (s.flgPin_sensed i high board j) :)

theorem GangEffect.well {s t : State} (h : GangEffect s t) (hs : s.Well) : t.Well := by
  cases h with
  | formed x watched hfit hlanes hfree => exact hs.formGang x watched hlanes (State.freeGang_lowest hfree).1
  | dissolved hG hqueue => exact hs.dissolve hG
  | configured c hG hqueue => exact hs.configureGang hG hqueue c
  | timed time hG hqueue => exact hs.setTime hG hqueue time
  | latched bytes hG hmode => exact hs.latchLines hG hmode bytes
  | sensed board => exact hs.pins fun i => (s.senseBoard_pin board i).2
  | control level hG hmode => exact hs.keep (.setCtl s _ level)
  | accepted f slot gen beats hG hb hroom => exact hs.accept hG _
  | cancelled hf => exact hs.cancelJob hf
  | halted hG hqueue => exact hs.haltGang hG hqueue
  | paused hG => exact hs.pauseGang _ _
  | resumed hG => exact hs.resumeGang _ _
  | flgChanged i high board => exact (hs.flgPin i high board).flgSeen i
  | holdChanged i high => exact hs.holdChanged i high
  | @settled g board G J later B hactive hdue =>
    have hsensed : (s.senseBoard board).Well := hs.pins fun i => (s.senseBoard_pin board i).2
    refine hsensed.settleDone ((hsensed.gangs g).clear (s := s.senseBoard board) hactive ?_)
    unfold settleDue at hdue
    exact (Bool.and_eq_true_iff.1 hdue).1
  | pulseEnded g => exact hs.pulseDone g
  | periodEnded g => exact hs.periodDone g
  | expired g => exact hs.beatExpired g

theorem StoreEffect.well {s t : State} (h : StoreEffect s t) (hs : s.Well) : t.Well := by
  rcases h.table with hsame | ⟨m, -, hsame⟩
  · exact hs.keep (.table hsame)
  · exact ((hs.keep (.table (s.sameTable_finishMove m))).keep (.evaluate _ _)).keep (.table hsame)

theorem State.Well.teardown {s : State} (h : s.Well) (x : LinkId) : (s.teardown x).Well := by
  rw [State.teardown_eq]
  refine State.Well.keep ⟨h.lanes.tornDown x, fun k => ?_⟩ (.evaluates _ _)
  by_cases hown : s.ownedBy x k = true
  · exact .none (by rw [State.tornDown_gang, if_pos hown])
  · have hgang : (s.tornDown x).gang k = s.gang k := by rw [State.tornDown_gang, if_neg hown]
    refine (h.gangs k).beside ⟨hgang, fun _ _ => rfl, fun K hK i hi => ?_⟩
    rw [State.tornDown_lane, (h.lanes.agree.iff hK i).2 hi, Option.any_some, if_neg hown]

/-- What the driver statement needs of a state: its drivers, and no gang while the part is not ready (R170). -/
structure State.LinesSound (s : State) : Prop where
  well : s.Well
  idle : s.mode ≠ .ready → ∀ g, s.gang g = none

theorem State.linesSound_iff {s : State} : s.LinesSound ↔ (s.LanesAgree ∧ s.FreeLanesFloat) ∧ s.DriversSound := by
  constructor
  · rintro ⟨⟨⟨hagree, hfloat⟩, hgangs⟩, hidle⟩
    refine ⟨⟨hagree, hfloat⟩, hidle, fun g G hG => (hgangs g G hG).1, fun i hon g hg G hG => ?_⟩
    exact (hgangs g G hG).2 i ((hagree.iff hG i).1 hg) hon
  · rintro ⟨⟨hagree, hfloat⟩, hidle, hbeats, hdrives⟩
    refine ⟨⟨⟨hagree, hfloat⟩, fun g G hG => ⟨hbeats g G hG, fun i hi hon => ?_⟩⟩, hidle⟩
    exact hdrives i hon g ((hagree.iff hG i).2 hi) G hG

theorem GangEffect.mode {s t : State} (h : GangEffect s t) : t.mode = s.mode :=
  h.calm.keeps (P := fun t => t.mode = s.mode) (fun _ _ hw hu => (Engine.single hw).fields.1.trans hu)
    (by rintro _ _ ⟨_, _, _, _, _, rfl⟩ hu; exact hu) rfl

theorem StoreEffect.mode {s t : State} (h : StoreEffect s t) : t.mode = s.mode := by
  rcases h.table with hsame | ⟨m, -, hsame⟩
  · exact hsame.mode
  · exact hsame.mode.trans (State.engine_evaluate (p := False) _ m.slot).fields.1

theorem keptBehindLinks_linesSound : KeptBehindLinks State.LinesSound where
  wires hw hs := ⟨hs.well.keep (.wires hw), by obtain ⟨_, _, _, _, _, _, _, rfl⟩ := hw; exact hs.idle⟩
  store hmode h hs := ⟨h.well hs.well, fun hne => absurd (h.mode.trans hmode) hne⟩
  gang hmode h hs := ⟨h.well hs.well, fun hne => absurd (h.mode.trans hmode) hne⟩
  teardown s x hs := by
    refine ⟨hs.well.teardown x, fun hne g => State.teardown_gone (.inl (hs.idle ?_ g))⟩
    rwa [← (s.onlyWork_teardown x).fields.1]
  cleared s hs := by
    have hnone (g : GangId) : s.cleared.gang g = none := by simp [State.gang, State.cleared]
    exact ⟨⟨keptBehindLinks_lanesSound.cleared s hs.well.lanes, fun g => .none (hnone g)⟩, fun _ => hnone⟩
  restarted s rsel mode started store rate hmode hstore hs := by
    have hnone (g : GangId) : ({ s.fullRestart rsel with mode := mode, started := started, store := store, rate := rate } :
        State).gang g = none := by simp [State.gang, State.fullRestart]
    exact ⟨⟨keptBehindLinks_lanesSound.restarted s rsel mode started store rate hmode hstore hs.well.lanes,
      fun g => .none (hnone g)⟩, fun _ => hnone⟩
  startupEnded s hmode hs :=
    ⟨⟨⟨hs.well.lanes.agree, hs.well.lanes.float⟩, fun g => .none (hs.idle hmode g)⟩, fun _ => hs.idle hmode⟩
  sensed s i high board hs := ⟨hs.well.flgPin i high board, hs.idle⟩
  holdRecorded s i high hmode hs :=
    ⟨⟨⟨hs.well.lanes.agree, hs.well.lanes.float⟩, fun g => .none (hs.idle hmode g)⟩, hs.idle⟩

/-- Settles O7: the agreement of lanes and gangs by every write, and the drivers gang by gang. -/
theorem lanesStayWithTheirGangs : Obligations.LanesStayWithTheirGangs := by
  refine ⟨fun s t hagree hfloat h => ?_, fun s t hagree hfloat _ hdrivers h => ?_,
    fun s hagree hdrivers g G hG hheld i hi => ?_⟩
  · have ht : t.LanesSound :=
      keptBehindLinks_lanesSound.step (fun _ _ hs => ⟨hs.agree, hs.float⟩) ⟨hagree, hfloat⟩ h
    exact ⟨ht.agree, ht.float⟩
  · have hs : s.LinesSound := State.linesSound_iff.2 ⟨⟨hagree, hfloat⟩, hdrivers⟩
    have ht : t.LinesSound := keptBehindLinks_linesSound.step (fun u rest hu =>
      ⟨⟨⟨hu.well.lanes.agree, hu.well.lanes.float⟩, hu.well.gangs⟩, hu.idle⟩) hs h
    exact (State.linesSound_iff.1 ht).2
  · refine Bool.eq_false_iff.2 fun hon => ?_
    have hmay := (hdrivers.2.2 i hon g ((hagree.iff hG i).2 hi) G hG).1
    rw [hheld] at hmay
    cases hmay

end Sys2Proof.Machine
end

section
/-! PROOFS. The effects on gangs and jobs as a chain of few kinds of steps: what bears on queues, job numbers, refs and access
records is done by these kinds alone. -/

namespace Sys2Proof.Machine

/-! ## Steps that bear on no queue and no record -/

/-- The queue and the run state stay, and a beat that is in flight was so or is one of a RUNNING job. -/
structure Gang.Core (G H : Gang) : Prop where
  queue : H.queue = G.queue
  run : H.run = G.run
  idle : G.beat = none → H.beat = none
  flight : ∀ B ∈ G.beat, ∃ C ∈ H.beat, ∀ J ∈ G.queue.head?, C.inFlight = true → B.inFlight = true ∨ J.state = .running

/-- The same beat state. -/
theorem Gang.Core.of_same {G H : Gang} (hqueue : H.queue = G.queue) (hrun : H.run = G.run) (hbeat : H.beat = G.beat) :
    G.Core H :=
  ⟨hqueue, hrun, hbeat.trans, fun B hB => ⟨B, hbeat ▸ hB, fun _ _ => .inl⟩⟩

theorem Gang.Core.refl (G : Gang) : G.Core G := .of_same rfl rfl rfl

theorem Gang.Core.trans {G H K : Gang} (h : G.Core H) (k : H.Core K) : G.Core K where
  queue := k.queue.trans h.queue
  run := k.run.trans h.run
  idle hG := k.idle (h.idle hG)
  flight B hB := by
    obtain ⟨C, hC, hBC⟩ := h.flight B hB
    obtain ⟨D, hD, hCD⟩ := k.flight C hC
    refine ⟨D, hD, fun J hJ hflight => ?_⟩
    rw [h.queue] at hCD
    exact (hCD J hJ hflight).elim (hBC J hJ) .inr

theorem Gang.BeatOnly.core {G H : Gang} : G.BeatOnly H → G.Core H := by
  rintro ⟨_, _, rfl, hnone, hgoes⟩
  refine ⟨rfl, rfl, hnone, fun B hB => ?_⟩
  obtain ⟨C, hC, hBC⟩ := hgoes B hB
  exact ⟨C, hC, fun J hJ => (hBC J hJ).flight⟩

/-- Nothing that bears on queues, job numbers and access records differs. -/
structure Quiet (s t : State) : Prop where
  dir : t.dir = s.dir
  nextId : t.nextId = s.nextId
  formed : ∀ k, ∀ G ∈ s.gang k, ∃ H ∈ t.gang k, G.Core H
  free : ∀ k, s.gang k = none → t.gang k = none

section
variable {s t u : State} {g : GangId}

theorem Quiet.of_parts (hdir : t.dir = s.dir) (hnext : t.nextId = s.nextId) (hgangs : t.gangs = s.gangs) : Quiet s t := by
  have hgang (k : GangId) : t.gang k = s.gang k := by
    rw [State.gang, hgangs]
    rfl
  exact ⟨hdir, hnext, fun k G hG => ⟨G, (hgang k).trans hG, .refl G⟩, fun k hk => (hgang k).trans hk⟩

theorem Quiet.refl (s : State) : Quiet s s := .of_parts rfl rfl rfl

theorem Quiet.trans (h : Quiet s t) (k : Quiet t u) : Quiet s u where
  dir := k.dir.trans h.dir
  nextId := k.nextId.trans h.nextId
  formed j G hG := by
    obtain ⟨H, hH, hGH⟩ := h.formed j G hG
    obtain ⟨K, hK, hHK⟩ := k.formed j H hH
    exact ⟨K, hK, hGH.trans hHK⟩
  free j hj := k.free j (h.free j hj)

theorem Quiet.block (h : Quiet s t) (i : SlotId) : t.block i = s.block i := by rw [State.block, h.dir]; rfl

theorem Quiet.wires (h : OnlyWires s t) : Quiet s t := by
  obtain ⟨_, _, _, _, _, _, _, rfl⟩ := h
  exact .of_parts rfl rfl rfl

theorem Quiet.modGang (s : State) {f : Gang → Gang} (hf : ∀ G ∈ s.gang g, G.Core (f G)) : Quiet s (s.modGang g f) where
  dir := rfl
  nextId := rfl
  formed k G hG := by
    by_cases hk : k = g
    · subst hk
      exact ⟨f G, by rw [State.modGang_gang_self, Option.mem_def.1 hG]; rfl, hf G hG⟩
    · exact ⟨G, by rwa [State.modGang_gang_ne _ _ hk], .refl G⟩
  free k hk := by
    by_cases hkg : k = g
    · subst hkg
      rw [State.modGang_gang_self, hk]
      rfl
    · rwa [State.modGang_gang_ne _ _ hkg]

theorem Quiet.setGang {G H : Gang} (hG : s.gang g = some G) (h : G.Core H) : Quiet s (s.setGang g (some H)) := by
  have hset := Quiet.modGang (g := g) s (f := fun _ => H) fun G' hG' => by
    obtain rfl := Option.some.inj (hG.symm.trans hG')
    exact h
  rwa [State.modGang_eq hG] at hset

theorem Quiet.modLanes (s : State) (G : Gang) (f : Nat → Lane → Lane) : Quiet s (s.modLanes G f) := .of_parts rfl rfl rfl

theorem Quiet.setDrivers (s : State) (G : Gang) (on : Bool) : Quiet s (s.setDrivers G on) := .modLanes s G _

theorem Quiet.beatStep (h : BeatStep g s t) : Quiet s t where
  dir := h.dir
  nextId := by
    obtain ⟨_, _, _, rfl⟩ := h.only
    rfl
  formed k G hG := by
    by_cases hk : k = g
    · subst hk
      obtain ⟨H, hH, hGH⟩ := h.record G hG
      exact ⟨H, hH, hGH.core⟩
    · exact ⟨G, (h.others k hk).trans hG, .refl G⟩
  free k hk := by
    by_cases hkg : k = g
    · subst hkg
      exact h.free hk
    · exact (h.others k hkg).trans hk

theorem Quiet.setCtl (s : State) (g : GangId) (level : Bool) : Quiet s (s.setCtl g level) := .beatStep (.setCtl s g level)

theorem Quiet.tryBegin (s : State) (g : GangId) : Quiet s (s.tryBegin g) := .beatStep (.tryBegin s g)

theorem Quiet.withActive {f : Gang → Job → Beat → State}
    (h : ∀ G J later B, s.Active g G J later B → Quiet s (f G J B)) : Quiet s (s.withActive g f) :=
  withActive_cases (.refl s) h

theorem Quiet.nextBeat {G : Gang} {J : Job} {later : List Job} {B : Beat} (h : s.Active g G J later B) :
    Quiet s (s.modBeat g fun _ => B.next J) := by
  refine .beatStep (.modBeat s g fun G' J' later' B' h' => ?_)
  obtain ⟨-, rfl, -, rfl⟩ := h.unique h'
  exact ⟨id, fun hflight => by simp [Beat.next] at hflight, fun _ _ => by simp [Beat.next]⟩

theorem Quiet.modBeat (s : State) (g : GangId) {f : Beat → Beat} (hf : ∀ B, (f B).inFlight = B.inFlight) :
    Quiet s (s.modBeat g f) :=
  .modGang s fun _ _ => ⟨rfl, rfl, fun hnone => by rw [hnone]; rfl,
    fun B hB => ⟨f B, by rw [Option.mem_def.1 hB]; rfl, fun _ _ hflight => .inl ((hf B).symm.trans hflight)⟩⟩

theorem Quiet.driveAndSettle (s : State) (g : GangId) : Quiet s (s.driveAndSettle g) := by
  refine Quiet.trans (t := s.drive g) (.withActive fun G J later B _ => ?_) (.modBeat _ g fun _ => rfl)
  split
  · exact .refl s
  · exact (Quiet.modLanes s G _).trans (.modBeat _ g fun _ => rfl)

end

/-! ## The kinds of steps -/

/-- One step of the work of the gangs. -/
inductive WorkStep : State → State → Prop
  | quiet {s t : State} (h : Quiet s t) : WorkStep s t
  | departed (s : State) (g : GangId) (o : LastOutcome) (notice : Option NoticeBody) : WorkStep s (s.departHead g o notice)
  | completed (s : State) {g : GangId} {G : Gang} {J : Job} {later : List Job} {B : Beat}
      (hactive : s.Active g G J later B) (hflight : B.inFlight = true) :
      WorkStep s (s.setGang g (some
        { G with run := .paused, queue := { J with state := .paused } :: later, beat := some (B.next J) }))
  | formed (s : State) {g : GangId} {G : Gang} (hfree : s.gang g = none) (hqueue : G.queue = []) (hbeat : G.beat = none) :
      WorkStep s (s.setGang g (some G))
  | dissolved (s : State) {g : GangId} {G : Gang} (hG : s.gang g = some G) (hqueue : G.queue = []) :
      WorkStep s (s.setGang g none)
  | submitted (s : State) {g : GangId} {G : Gang} {J : Job} {b : Block} (hG : s.gang g = some G)
      (hroom : G.queue.length < queueCap) (hid : J.id = s.issueId) (hstate : J.state = .queued)
      (hb : s.block J.slot = some b) : WorkStep s (s.accept g J G.queue.isEmpty)
  | left (s : State) {g : GangId} {G : Gang} {before behind : List Job} {J : Job} (hG : s.gang g = some G)
      (hqueue : G.queue = before ++ J :: behind) (hbefore : before ≠ []) : WorkStep s (s.departQueued g before J behind)
  | halting (s : State) {g : GangId} {G : Gang} {J : Job} {behind : List Job} (hG : s.gang g = some G)
      (hqueue : G.queue = J :: behind) : WorkStep s (s.halting g G J behind)
  | turned (s : State) {g : GangId} {G : Gang} {run : RunState} (hG : s.gang g = some G)
      (hrun : (run = .paused ↔ G.run = .paused) ∨
        ∀ J ∈ G.queue.head?, J.state ≠ if G.run = .paused then .paused else .running) :
      WorkStep s (s.setGang g (some { G with run := run }))
  | paused (s : State) {g : GangId} {G : Gang} {J : Job} {later : List Job} (hG : s.gang g = some G)
      (hqueue : G.queue = J :: later) (hstate : J.state = .running) (hrest : ∀ B ∈ G.beat, B.inFlight = false) :
      WorkStep s (s.setGang g (some { G with run := .paused, queue := { J with state := .paused } :: later }))
  | resumed (s : State) {g : GangId} {G : Gang} {J : Job} {later : List Job} (hG : s.gang g = some G)
      (hqueue : G.queue = J :: later) (hstate : J.state = .paused) :
      WorkStep s (s.setGang g (some { G with run := .running, queue := { J with state := .running } :: later }))

/-- A chain of steps of the work of the gangs. -/
abbrev Work : State → State → Prop := Relation.ReflTransGen WorkStep

theorem Work.step {s t : State} (h : WorkStep s t) : Work s t := .single h

theorem Work.of_quiet {s t : State} (h : Quiet s t) : Work s t := .single (.quiet h)

/-- What every step keeps, a chain keeps. -/
theorem Work.keeps {P : State → Prop} (hstep : ∀ s t, WorkStep s t → P s → P t) {s t : State} (h : Work s t) (hs : P s) : P t := by
  induction h with
  | refl => exact hs
  | tail _ hlast ih => exact hstep _ _ hlast ih

/-! ## The events -/

section
variable {s : State} {g : GangId} {G : Gang} {J : Job} {later : List Job} {B : Beat}

theorem Work.departed (s : State) (g : GangId) (o : LastOutcome) (notice : Option NoticeBody) :
    Work s (s.departHead g o notice) :=
  .step (.departed s g o notice)

/-- A beat in flight completes (R82, R124, R131). -/
theorem Work.completeBeat (h : s.Active g G J later B) (hflight : B.inFlight = true) : Work s (s.completeBeat g) := by
  have hnext := Quiet.nextBeat h
  rw [State.completeBeat, State.withActive_eq h]
  dsimp only
  split
  · exact (Work.of_quiet (hnext.trans (.setCtl _ g false))).trans (Work.departed _ g _ _)
  · split
    · exact Work.of_quiet (hnext.trans (.tryBegin _ g))
    · refine .step ?_
      have hgang : (s.modBeat g fun _ => B.next J).gang g = some { G with beat := some (B.next J) } := by
        rw [h.modBeat, State.setGang_gang_self]
      rw [State.modGang_eq hgang, h.modBeat, State.setGang_setGang, State.setJobState,
        State.modGang_eq (State.setGang_gang_self ..), State.setGang_setGang]
      have hdone := WorkStep.completed s h hflight
      rw [show ({ G with beat := some (B.next J), run := .paused } : Gang).queue = J :: later from h.2.1]
      exact hdone
    · exact Work.of_quiet hnext

theorem Work.completeBeat_low (h : s.Active g G J later B) (hflight : B.inFlight = true) (level : Bool) :
    Work s ((s.setCtl g level).completeBeat g) := by
  have hlow : (s.setCtl g level).Active g { G with ctl := level } J later B := by
    rw [h.setCtl]
    exact ⟨State.setGang_gang_self .., h.2.1, h.2.2⟩
  exact (Work.of_quiet (.setCtl s g level)).trans (Work.completeBeat hlow hflight)

theorem Work.sampleAndComplete (h : s.Active g G J later B) (hflight : B.inFlight = true) (ctl : Bool) :
    Work s (s.sampleAndComplete g ctl) := by
  have hquiet : Quiet s (s.sample g) := .beatStep (.sample s g)
  obtain ⟨C, hactive, hC⟩ : ∃ C : Beat, (s.sample g).Active g { G with beat := some C } J later C ∧ C.inFlight = true := by
    cases hb : s.block J.slot with
    | none =>
      have hsame : s.sample g = s := by rw [State.sample, State.withActive_eq h, hb]
      rw [hsame]
      refine ⟨B, ⟨?_, h.2.1, rfl⟩, hflight⟩
      rw [h.1, ← h.2.2]
    | some b =>
      rw [h.sample hb]
      exact ⟨_, ⟨State.setGang_gang_self .., h.2.1, rfl⟩, hflight⟩
  exact (Work.of_quiet hquiet).trans (Work.completeBeat_low hactive hC ctl)

theorem Work.faultJob (h : s.Active g G J later B) (reason : FaultReason) : Work s (s.faultJob g reason) := by
  rw [State.faultJob, State.withActive_eq h]
  exact (Work.of_quiet (.setCtl s g false)).trans (Work.departed _ g _ _)

theorem Work.flgMoved (s : State) (g : GangId) (f : Bool) : Work s (s.flgMoved g f) := by
  refine withActive_cases .refl fun G J later B hactive => ?_
  split
  · rename_i hgoes
    have hflight : B.inFlight = true := (Bool.and_eq_true_iff.1 hgoes).1
    split
    · split_ifs
      · exact .refl
      · exact Work.of_quiet (.beatStep (.passReady s g))
    · split_ifs
      · split
        · exact Work.completeBeat_low hactive hflight false
        · exact Work.of_quiet (.beatStep (.setPhase s g (by decide)))
      · exact .refl
    · split_ifs
      · exact Work.completeBeat hactive hflight
      · exact Work.of_quiet (.driveAndSettle s g)
      · exact .refl
    · split_ifs
      · exact .refl
      · exact Work.of_quiet (.beatStep (.setPhase s g (by decide)))
    · split_ifs
      · exact Work.of_quiet (.beatStep (((BeatStep.sample s g).trans (.setCtl _ g true)).trans (.setPhase _ g (by decide))))
      · exact .refl
    · split_ifs
      · exact .refl
      · exact Work.of_quiet (.beatStep (.periodStart s g))
    · split_ifs
      · exact Work.faultJob hactive _
      · exact .refl
    all_goals exact .refl
  · exact .refl

theorem Quiet.watchFlg (s : State) (g : GangId) (f : Bool) : Quiet s (s.watchFlg g f) := by
  unfold State.watchFlg
  split
  · exact .refl s
  · split_ifs
    · refine (Quiet.modGang (g := g) s (f := fun G => { G with watched := f }) fun _ _ => .of_same rfl rfl rfl).trans (.wires ?_)
      unfold State.notifyEdge
      split_ifs
      · exact State.wires_modLink _ _ _
      · exact State.wires_notify _ _ _
    · exact .refl s

theorem Work.flgSeen (s : State) (i : LaneId) : Work s (s.flgSeen i) := by
  unfold State.flgSeen
  split
  · exact .refl
  · split_ifs
    · exact Work.of_quiet (.watchFlg s _ _)
    · exact Work.flgMoved s _ _
    · exact .refl

theorem Work.settleDone (h : s.Active g G J later B) (hflight : B.inFlight = true) : Work s (s.settleDone g) := by
  rw [State.settleDone, State.withActive_eq h]
  have hpulse (level : Bool) {p : Phase} (hp : p ≠ .waitMatch) : Work s ((s.setCtl g level).setPhase g p) :=
    Work.of_quiet (.beatStep ((BeatStep.setCtl s g level).trans (.setPhase _ g hp)))
  have htoggled : (s.setCtl g !G.ctl).modBeat g (fun B => { B with toggled := true }) =
      s.setGang g (some { G with ctl := !G.ctl, beat := some { B with toggled := true } }) := by
    rw [h.setCtl, State.setGang_modBeat, h.2.2]
    rfl
  have hcore : G.Core { G with ctl := !G.ctl, beat := some { B with toggled := true } } := by
    refine ⟨rfl, rfl, fun hnone => ?_, fun B' hB' => ⟨_, rfl, fun _ _ hf => .inl ?_⟩⟩
    · cases h.2.2.symm.trans hnone
    · obtain rfl := Option.some.inj (h.2.2.symm.trans hB')
      exact hf
  have hquiet := Quiet.setGang h.1 hcore
  dsimp only
  split
  · split_ifs
    · exact Work.completeBeat_low h hflight false
    · exact hpulse true (by decide)
  · exact Work.sampleAndComplete h hflight false
  · rw [htoggled]
    split_ifs
    · refine (Work.of_quiet hquiet).trans (Work.completeBeat (J := J) (later := later) ⟨State.setGang_gang_self .., ?_, rfl⟩ hflight)
      exact h.2.1
    · exact Work.of_quiet (hquiet.trans (.modBeat _ g fun _ => rfl))
  · exact Work.sampleAndComplete h hflight _
  · exact hpulse true (by decide)
  · exact hpulse true (by decide)
  · split_ifs
    · exact Work.of_quiet (.beatStep ((BeatStep.sample s g).trans (.setPhase _ g (by decide))))
    · exact Work.of_quiet (.beatStep (.sample s g))
  · exact .refl
  · exact .refl

theorem Work.pulseDone (s : State) (g : GangId) : Work s (s.pulseDone g) := by
  refine withActive_cases .refl fun G J later B hactive => ?_
  split
  · rename_i hgoes
    have hflight : B.inFlight = true := by
      simp only [Bool.and_eq_true] at hgoes
      exact hgoes.1.1
    have hlow {p : Phase} (hp : p ≠ .waitMatch) : Work s ((s.setCtl g false).setPhase g p) :=
      Work.of_quiet (.beatStep ((BeatStep.setCtl s g false).trans (.setPhase _ g hp)))
    split
    · exact Work.completeBeat_low hactive hflight false
    · split_ifs
      · exact Work.completeBeat_low hactive hflight false
      · exact hlow (by decide)
    · split_ifs
      · exact hlow (by decide)
      · exact hlow (by decide)
      · exact .refl
    · exact .refl
  · exact .refl

theorem Work.periodDone (s : State) (g : GangId) : Work s (s.periodDone g) := by
  refine withActive_cases .refl fun G J later B hactive => ?_
  split_ifs with hgoes
  · have hflight : B.inFlight = true := by
      simp only [Bool.and_eq_true] at hgoes
      exact hgoes.1.1
    exact Work.completeBeat hactive hflight
  · exact Work.of_quiet (.modBeat s g fun _ => rfl)
  · exact .refl
  · exact .refl

theorem Work.beatExpired (s : State) (g : GangId) : Work s (s.beatExpired g) := by
  refine withActive_cases .refl fun G J later B hactive => ?_
  split_ifs
  · exact Work.faultJob hactive _
  · exact Work.faultJob hactive _
  · exact .refl

theorem Quiet.abandonBeat (s : State) (g : GangId) : Quiet s (s.abandonBeat g) := by
  refine .withActive fun G J later B _ => ?_
  split_ifs
  · exact (Quiet.modGang s (f := fun G => { G with ctl := if G.cfg.mode = .answered then G.ctl ^^ B.toggled else false })
      fun _ _ => .of_same rfl rfl rfl).trans (.modBeat _ g fun _ => rfl)
  · exact .refl s

theorem Quiet.holdSeen (s : State) (i : LaneId) (before : State) : Quiet s (s.holdSeen i before) := by
  unfold State.holdSeen
  split
  · exact .refl s
  · split_ifs
    · unfold State.holdBegin
      split
      · exact .refl s
      · exact (Quiet.setDrivers s _ false).trans (.abandonBeat _ _)
    · unfold State.holdEnd
      split
      · exact .refl s
      · split <;> try split_ifs
        · exact (Quiet.modBeat s _ (f := fun B => { B with abandoned := false, toggled := false }) fun _ => rfl).trans
            (.beatStep (.enterFirst _ _))
        · exact .tryBegin s _
        · exact .refl s
        · exact .setDrivers s _ true
        · exact .refl s
        · exact .refl s
    · exact .refl s

/-! ## The requests -/

theorem Work.cancelJob {id : Nat} {f : Found} (hf : s.findJob id = some f) : Work s (s.cancelJob f) := by
  obtain ⟨hG, hq, -, -⟩ := State.findJob_eq hf
  unfold State.cancelJob
  split_ifs with hempty
  · exact (Work.of_quiet (.setCtl s f.gang false)).trans (Work.departed _ f.gang _ _)
  · exact .step (.left s hG hq (mt List.isEmpty_iff.2 hempty))

theorem Work.haltGang (hG : s.gang g = some G) {behind : List Job} (hq : G.queue = J :: behind) :
    Work s (s.haltGang g J behind) := by
  rw [State.haltGang_halting hG]
  exact (Work.step (.halting s hG hq)).trans (Work.departed _ g _ _)

theorem Work.pauseGang (hG : s.gang g = some G) : Work s (s.pauseGang g G) := by
  cases hrun : G.run with
  | pausing | paused =>
    rw [State.pauseGang_of_ne_running (by rw [hrun]; decide)]
  | running =>
    cases hflight : G.inFlight with
    | true =>
      rw [State.pauseGang_of_inFlight hG hrun hflight]
      exact .step (.turned s hG (.inl (by simp [hrun])))
    | false =>
      rw [State.pauseGang_of_not_inFlight hG hrun hflight]
      cases hq : G.queue with
      | nil =>
        have hturned := WorkStep.turned s hG (run := .paused) (.inr (by simp [hq]))
        rw [show ({ G with run := .paused, queue := pauseHead [] } : Gang) = { G with run := .paused } by
          rw [pauseHead, ← hq]]
        exact .step hturned
      | cons J later =>
        by_cases hstate : J.state = .running
        · have hrest : ∀ B ∈ G.beat, B.inFlight = false := by
            intro B hB
            rw [Gang.inFlight, Option.mem_def.1 hB] at hflight
            exact hflight
          have hpaused := WorkStep.paused s hG hq hstate hrest
          rw [pauseHead, if_pos hstate]
          exact .step hpaused
        · have hturned := WorkStep.turned s hG (run := .paused) (.inr fun K hK => by
            rw [hq] at hK
            obtain rfl := Option.some.inj hK
            rwa [hrun, if_neg (by decide)])
          rw [pauseHead, if_neg hstate, ← hq]
          exact .step hturned

theorem Work.resumeGang (hG : s.gang g = some G) : Work s (s.resumeGang g G) := by
  cases hrun : G.run with
  | running =>
    rw [State.resumeGang_of_running hrun]
  | pausing =>
    rw [State.resumeGang_of_no_paused_job hG (by rw [hrun]; decide) (by rw [hrun]; intro h; cases h)]
    exact .step (.turned s hG (.inl (by simp [hrun])))
  | paused =>
    by_cases hjob : ∀ J ∈ G.queue.head?, J.state ≠ .paused
    · rw [State.resumeGang_of_no_paused_job hG (by rw [hrun]; decide) fun _ => hjob]
      exact .step (.turned s hG (.inr fun J hJ => by rw [if_pos hrun]; exact hjob J hJ))
    · push Not at hjob
      obtain ⟨J, hJ, hstate⟩ := hjob
      obtain ⟨later, hq⟩ := List.head?_eq_some_iff.1 hJ
      rw [State.resumeGang_of_paused_job hG hrun hq hstate]
      exact (Work.step (.resumed s hG hq hstate)).trans (Work.of_quiet (.tryBegin _ g))

end

/-- Every effect on gangs and jobs is a chain of these steps. -/
theorem GangEffect.work {s t : State} (h : GangEffect s t) : Work s t := by
  cases h with
  | formed x watched hfit hlanes hfree =>
    exact (Work.step (.formed s (State.freeGang_lowest hfree).1 rfl rfl)).trans (Work.of_quiet (.modLanes _ _ _))
  | dissolved hG hqueue =>
    exact (Work.step (.dissolved s hG hqueue)).trans
      (Work.of_quiet ((Quiet.modLanes _ _ _).trans (.wires (State.wires_orphanEdges _ _ _))))
  | @configured g G c hG hqueue =>
    have hset : Quiet s (s.setGang g (some (G.configured c s.pins[G.first].flg))) := .setGang hG (.of_same rfl rfl rfl)
    exact Work.of_quiet (hset.trans (.setDrivers _ _ _))
  | timed time hG hqueue => exact Work.of_quiet (.setGang hG (.of_same rfl rfl rfl))
  | latched bytes hG hmode => exact Work.of_quiet (.modLanes s _ _)
  | sensed board => exact Work.of_quiet (.of_parts rfl rfl rfl)
  | control level hG hmode => exact Work.of_quiet (.setCtl s _ level)
  | accepted f slot gen beats hG hb hroom => exact Work.step (.submitted s hG hroom rfl rfl hb)
  | cancelled hf => exact Work.cancelJob hf
  | halted hG hqueue => exact Work.haltGang hG hqueue
  | paused hG => exact Work.pauseGang hG
  | resumed hG => exact Work.resumeGang hG
  | flgChanged i high board =>
    have hpins : Quiet s ((s.setFlgPin i high).senseBoard board) := .of_parts rfl rfl rfl
    exact (Work.of_quiet hpins).trans (Work.flgSeen _ i)
  | holdChanged i high =>
    have hpins : Quiet s (s.setHoldPin i high) := .of_parts rfl rfl rfl
    exact Work.of_quiet (hpins.trans (.holdSeen _ i s))
  | @settled g board G J later B hactive hdue =>
    have hsensed : Quiet s (s.senseBoard board) := .of_parts rfl rfl rfl
    refine (Work.of_quiet hsensed).trans (Work.settleDone (s := s.senseBoard board) hactive ?_)
    simp only [settleDue, Bool.and_eq_true] at hdue
    exact hdue.1.1
  | pulseEnded g => exact Work.pulseDone s g
  | periodEnded g => exact Work.periodDone s g
  | expired g => exact Work.beatExpired s g

end Sys2Proof.Machine
end

section
/-! PROOFS. The queues, the job numbers and the refs (R13, R115, R116, R121): what each kind of step leaves in the queues. -/

namespace Sys2Proof.Machine

/-! ## The gangs beside the one whose jobs move -/

/-- Every gang but `g` is renewed at most. -/
structure RenewedBut (g : GangId) (s t : State) : Prop where
  formed : ∀ k, k ≠ g → ∀ G ∈ s.gang k, ∃ H ∈ t.gang k, G.Renewed H
  free : ∀ k, k ≠ g → s.gang k = none → t.gang k = none

section
variable {s t u : State} {g : GangId}

theorem RenewedBut.of_eq (h : ∀ k, k ≠ g → t.gang k = s.gang k) : RenewedBut g s t :=
  ⟨fun k hk G hG => ⟨G, (h k hk).trans hG, .refl G⟩, fun k hk hnone => (h k hk).trans hnone⟩

theorem RenewedBut.of_works (h : Works s t) : RenewedBut g s t := ⟨fun k _ => h.formed k, fun k _ => h.free k⟩

theorem RenewedBut.trans (h : RenewedBut g s t) (k : RenewedBut g t u) : RenewedBut g s u where
  formed j hj G hG := by
    obtain ⟨H, hH, hGH⟩ := h.formed j hj G hG
    obtain ⟨K, hK, hHK⟩ := k.formed j hj H hH
    exact ⟨K, hK, hGH.trans hHK⟩
  free j hj hnone := k.free j hj (h.free j hj hnone)

theorem RenewedBut.modGang (s : State) (g : GangId) (f : Gang → Gang) : RenewedBut g s (s.modGang g f) :=
  .of_eq fun _ hk => State.modGang_gang_ne _ _ hk

theorem RenewedBut.setGang (s : State) (g : GangId) (o : Option Gang) : RenewedBut g s (s.setGang g o) :=
  .of_eq fun _ hk => State.setGang_gang_ne _ _ hk

theorem RenewedBut.removeHead (s : State) (g : GangId) (J : Job) (keep : List Job) :
    RenewedBut g s (s.removeHead g J keep) :=
  ((RenewedBut.modGang s g fun G => { G with queue := keep, beat := none }).trans
    (.of_works (((Works.modBlock _ J.slot fun b => b.without (· == g)).trans (.evaluate _ J.slot)).trans
      (.modBlock _ J.slot fun b => { b with refs := b.refs - 1 }))))

theorem RenewedBut.dropJobs {G : Gang} (hG : s.gang g = some G) (cause : Nat) (jobs : List Job) :
    RenewedBut g s (s.dropJobs g cause jobs) :=
  .of_eq (State.dropJobs_dropped hG cause jobs).others

theorem RenewedBut.activate {G : Gang} (hG : s.gang g = some G) : RenewedBut g s (s.activate g) := by
  rw [State.activate_eq hG]
  have hfloat : RenewedBut g s (s.setDrivers G false) := .of_eq fun _ _ => rfl
  exact (hfloat.trans (.setGang _ g _)).trans (.of_works (.claim _ g))

/-- The activated gang's jobs stay in their order, and it has a beat state (R122). -/
theorem State.activate_jobs {G : Gang} (hG : s.gang g = some G) :
    ∃ H ∈ (s.activate g).gang g, SameJobs G.queue H.queue ∧ H.beat.isSome = true := by
  rw [State.activate_eq hG]
  obtain ⟨_, hH, ctl, beat, queue, rfl, hbeat, hjobs⟩ :=
    (Works.claim ((s.setDrivers G false).setGang g (some
      { G with ctl := false, restDrive := false, beat := some Beat.init })) g).formed g _ (State.setGang_gang_self ..)
  exact ⟨_, hH, hjobs, hbeat⟩

theorem RenewedBut.departing {G : Gang} (hG : s.gang g = some G) (J : Job) (later : List Job) (o : LastOutcome)
    (notice : Option NoticeBody) : RenewedBut g s (s.departing g J later o notice) := by
  have hlast : RenewedBut g s ((s.removeHead g J (keepOf o later)).setLast g o) :=
    (RenewedBut.removeHead s g J _).trans (.modGang _ g _)
  have hgang : ((s.removeHead g J (keepOf o later)).setLast g o).gang g =
      some { G with queue := keepOf o later, beat := none, last := o } := by
    rw [State.setLast, State.modGang_gang_self, State.removeHead_gang hG]
    rfl
  cases notice with
  | none => exact hlast.trans (.dropJobs hgang _ _)
  | some body =>
    rw [State.departing, Option.elim, State.notifyOwner_eq hgang]
    exact (hlast.trans (.of_eq fun _ _ => State.notify_gang ..)).trans (.dropJobs ((State.notify_gang ..).trans hgang) _ _)

/-- What a departure makes of the queues: the jobs that stay keep their order, the gang has a beat state exactly while a
job stays, and the other gangs are renewed at most. -/
theorem State.departHead_queues {G : Gang} {J : Job} {later : List Job} (hG : s.gang g = some G) (hq : G.queue = J :: later)
    (o : LastOutcome) (notice : Option NoticeBody) :
    RenewedBut g s (s.departHead g o notice) ∧
      ∃ H ∈ (s.departHead g o notice).gang g, SameJobs (keepOf o later) H.queue ∧
        H.beat.isSome = !(keepOf o later).isEmpty := by
  have hbefore := RenewedBut.departing hG J later o notice
  by_cases hkeep : keepOf o later = []
  · obtain ⟨K, hK, hKeq, hdone⟩ := State.departHead_last hG hq hkeep notice
    rw [hdone, hkeep]
    set v := (s.departing g J later o notice).rested g K (J.dir == .send && G.beat.any Beat.drove) with hv
    obtain ⟨hgangs, -, -⟩ := v.syncEmptied_behind g
    have hgang (k : GangId) : (v.syncEmptied g).gang k = v.gang k := by rw [State.gang, hgangs]; rfl
    refine ⟨hbefore.trans (.of_eq fun k hk => (hgang k).trans (State.setGang_gang_ne _ _ hk)), _,
      (hgang g).trans (State.rested_gang ..), ?_, ?_⟩
    · rw [hKeq]
      exact .refl []
    · rw [hKeq]
      rfl
  · obtain ⟨K, hK, hKeq, hdone⟩ := State.departHead_more hG hq hkeep notice
    rw [hdone]
    obtain ⟨H, hH, hjobs, hbeat⟩ := State.activate_jobs
      (s := (s.departing g J later o notice).setGang g (some K.settled)) (State.setGang_gang_self ..)
    refine ⟨(hbefore.trans (.setGang _ g _)).trans (.activate (State.setGang_gang_self ..)), H, hH, ?_, ?_⟩
    · rw [hKeq] at hjobs
      exact hjobs
    · rw [hbeat, List.isEmpty_eq_false_iff.2 hkeep]
      rfl

theorem State.haltBehind_gang_ne (s : State) (behind : List Job) {k : GangId} (hk : k ≠ g) :
    (s.haltBehind g behind).gang k = s.gang k := by
  induction behind with
  | nil => rfl
  | cons K ks ih => exact (State.modGang_gang_ne _ _ hk).trans ih

end

/-! ## The shape of the queues -/

theorem Gang.Renewed.queueShape {G H : Gang} (h : G.Renewed H) (hs : G.QueueShape) : H.QueueShape := by
  obtain ⟨ctl, beat, queue, rfl, hbeat, hjobs⟩ := h
  obtain ⟨hlen, htail, hsome⟩ := hs
  have hlength : queue.length = G.queue.length := by
    have := congrArg List.length (hjobs.map_eq (f := Job.id) fun _ => rfl)
    simpa using this
  refine ⟨by rw [hlength]; exact hlen, by rw [hjobs.1]; exact htail, ?_⟩
  rw [hbeat, hsome]
  congr 1
  rw [Bool.eq_iff_iff, List.isEmpty_iff, List.isEmpty_iff, ← List.length_eq_zero_iff, ← List.length_eq_zero_iff, hlength]

theorem Gang.Core.queueShape {G H : Gang} (h : G.Core H) (hs : G.QueueShape) : H.QueueShape := by
  obtain ⟨hlen, htail, hsome⟩ := hs
  refine ⟨h.queue ▸ hlen, h.queue ▸ htail, ?_⟩
  rw [h.queue, ← hsome]
  cases hB : G.beat with
  | none => rw [h.idle hB]
  | some B =>
    obtain ⟨C, hC, -⟩ := h.flight B hB
    rw [Option.mem_def.1 hC]
    rfl

section
variable {s t : State} {g : GangId}

theorem Works.queuesShape (h : Works s t) (hs : s.QueuesShape) : t.QueuesShape := by
  intro k H hH
  cases hG : s.gang k with
  | none =>
    cases (h.free k hG).symm.trans hH
  | some G =>
    obtain ⟨H', hH', hGH⟩ := h.formed k G hG
    obtain rfl := Option.some.inj (Option.mem_def.1 hH |>.symm.trans hH')
    exact hGH.queueShape (hs k G hG)

/-- The other gangs are renewed, and this one has a queue of its shape. -/
theorem RenewedBut.queuesShape (h : RenewedBut g s t) (hs : s.QueuesShape) (hg : ∀ H ∈ t.gang g, H.QueueShape) :
    t.QueuesShape := by
  intro k H hH
  by_cases hk : k = g
  · subst hk
    exact hg H hH
  · cases hG : s.gang k with
    | none => cases (h.free k hk hG).symm.trans hH
    | some G =>
      obtain ⟨H', hH', hGH⟩ := h.formed k hk G hG
      obtain rfl := Option.some.inj (Option.mem_def.1 hH |>.symm.trans hH')
      exact hGH.queueShape (hs k G hG)

theorem State.QueuesShape.setGang (hs : s.QueuesShape) {H : Gang} (hH : H.QueueShape) :
    (s.setGang g (some H)).QueuesShape :=
  (RenewedBut.setGang s g (some H)).queuesShape hs fun K hK => by
    obtain rfl := Option.some.inj ((State.setGang_gang_self ..).symm.trans hK)
    exact hH

/-- A queue of QUEUED jobs. -/
theorem SameJobs.tail_queued {q q' : List Job} (h : SameJobs q q') (hq : ∀ J ∈ q.tail, J.state = .queued) :
    ∀ J ∈ q'.tail, J.state = .queued := by
  rw [h.1]
  exact hq

theorem SameJobs.length_eq {q q' : List Job} (h : SameJobs q q') : q'.length = q.length := by
  have := congrArg List.length (h.map_eq (f := Job.id) fun _ => rfl)
  simpa using this

theorem SameJobs.isEmpty_eq {q q' : List Job} (h : SameJobs q q') : q'.isEmpty = q.isEmpty := by
  rw [Bool.eq_iff_iff, List.isEmpty_iff, List.isEmpty_iff, ← List.length_eq_zero_iff, ← List.length_eq_zero_iff, h.length_eq]

theorem keepOf_sublist (o : LastOutcome) (later : List Job) : (keepOf o later).Sublist later := by
  unfold keepOf
  split_ifs
  · exact .refl _
  · exact List.dropWhile_sublist _

theorem State.QueuesShape.departHead (hs : s.QueuesShape) (g : GangId) (o : LastOutcome) (notice : Option NoticeBody) :
    (s.departHead g o notice).QueuesShape := by
  cases hG : s.gang g with
  | none =>
    rw [State.departHead, hG]
    exact hs
  | some G =>
    cases hq : G.queue with
    | nil =>
      rw [State.departHead, hG]
      dsimp only
      rw [hq]
      exact hs
    | cons J later =>
      obtain ⟨hothers, H, hH, hjobs, hbeat⟩ := State.departHead_queues hG hq o notice
      refine hothers.queuesShape hs fun H' hH' => ?_
      obtain rfl := Option.some.inj (Option.mem_def.1 hH |>.symm.trans hH')
      obtain ⟨hlen, htail, -⟩ := hs g G hG
      rw [hq] at hlen htail
      have hkeep := keepOf_sublist o later
      refine ⟨?_, hjobs.tail_queued fun K hK => htail K (hkeep.subset (List.mem_of_mem_tail hK)), ?_⟩
      · rw [hjobs.length_eq]
        exact hkeep.length_le.trans ((Nat.le_succ _).trans hlen)
      · rw [hbeat, hjobs.isEmpty_eq]

theorem State.QueuesShape.accept (hs : s.QueuesShape) {G : Gang} {J : Job} (hG : s.gang g = some G)
    (hroom : G.queue.length < queueCap) (hstate : J.state = .queued) : (s.accept g J G.queue.isEmpty).QueuesShape := by
  obtain ⟨hlen, htail, hbeat⟩ := hs g G hG
  have hgang : (s.queued g J).gang g = some { G with queue := G.queue ++ [J] } := by
    rw [State.queued, State.modGang_gang_self]
    exact congrArg _ hG
  have hothers : RenewedBut g s (s.queued g J) := .of_eq fun k hk => State.modGang_gang_ne _ _ hk
  have hlength : (G.queue ++ [J]).length ≤ queueCap := by
    rw [List.length_append]
    exact hroom
  rw [State.accept_cases]
  split_ifs with hempty
  · obtain ⟨H, hH, hjobs, hsome⟩ := State.activate_jobs hgang
    refine (hothers.trans (.activate hgang)).queuesShape hs fun H' hH' => ?_
    obtain rfl := Option.some.inj (Option.mem_def.1 hH |>.symm.trans hH')
    refine ⟨?_, hjobs.tail_queued ?_, ?_⟩
    · rw [hjobs.length_eq]
      exact hlength
    · simp [List.isEmpty_iff.1 hempty]
    · rw [hsome, hjobs.isEmpty_eq]
      simp
  · refine hothers.queuesShape hs fun H hH => ?_
    obtain rfl := Option.some.inj (Option.mem_def.1 hgang |>.symm.trans hH)
    obtain ⟨K, later, hq⟩ := List.exists_cons_of_ne_nil (mt List.isEmpty_iff.2 hempty)
    refine ⟨hlength, ?_, ?_⟩
    · rw [hq] at htail ⊢
      intro I hI
      rcases List.mem_append.1 hI with hI | hI
      · exact htail I hI
      · rw [List.mem_singleton.1 hI]
        exact hstate
    · show G.beat.isSome = _
      rw [hbeat, hq]
      rfl

theorem WorkStep.queuesShape (h : WorkStep s t) (hs : s.QueuesShape) : t.QueuesShape := by
  cases h with
  | quiet h =>
    intro k H hH
    cases hG : s.gang k with
    | none => cases (h.free k hG).symm.trans hH
    | some G =>
      obtain ⟨H', hH', hGH⟩ := h.formed k G hG
      obtain rfl := Option.some.inj (Option.mem_def.1 hH |>.symm.trans hH')
      exact hGH.queueShape (hs k G hG)
  | departed g o notice => exact hs.departHead g o notice
  | @completed g G J later B hactive hflight =>
    obtain ⟨hlen, htail, -⟩ := hs g G hactive.1
    rw [hactive.2.1] at hlen htail
    exact hs.setGang ⟨hlen, htail, rfl⟩
  | @formed g G hfree hqueue hbeat =>
    refine hs.setGang ⟨?_, ?_, ?_⟩
    · rw [hqueue]
      exact Nat.zero_le _
    · rw [hqueue]
      simp
    · rw [hqueue, hbeat]
      rfl
  | @dissolved g G hG hqueue =>
    refine (RenewedBut.setGang s g none).queuesShape hs fun H hH => ?_
    cases (State.setGang_gang_self ..).symm.trans hH
  | submitted hG hroom hid hstate hb => exact hs.accept hG hroom hstate
  | @left g G before behind J hG hqueue hbefore =>
    obtain ⟨hgang, hothers, -⟩ := State.departQueued_spec hG before J behind _ rfl
    obtain ⟨hlen, htail, hbeat⟩ := hs g G hG
    refine (RenewedBut.of_eq hothers).queuesShape hs fun H hH => ?_
    obtain rfl := Option.some.inj (hgang.symm.trans hH)
    obtain ⟨K, first, rfl⟩ := List.exists_cons_of_ne_nil hbefore
    have hsub : (first ++ behind.dropWhile Job.afterOk).Sublist (first ++ J :: behind) :=
      List.Sublist.append_left ((List.dropWhile_sublist _).cons _) _
    rw [hqueue] at hlen htail hbeat
    refine ⟨?_, fun I hI => htail I (hsub.subset hI), hbeat⟩
    exact (Nat.succ_le_succ hsub.length_le).trans hlen
  | @halting g G J behind hG hqueue =>
    obtain ⟨-, -, hbeat⟩ := hs g G hG
    refine (RenewedBut.trans (.of_eq fun k hk => s.haltBehind_gang_ne behind hk) (.setGang _ g _)).queuesShape hs
      fun H hH => ?_
    obtain rfl := Option.some.inj ((State.setGang_gang_self ..).symm.trans hH)
    refine ⟨Nat.succ_le_succ (Nat.zero_le 5), by simp, ?_⟩
    show G.beat.isSome = _
    rw [hbeat, hqueue]
    rfl
  | @turned g G run hG hrun => exact hs.setGang (hs g G hG)
  | @paused g G J later hG hqueue hstate hrest =>
    obtain ⟨hlen, htail, hbeat⟩ := hs g G hG
    rw [hqueue] at hlen htail hbeat
    exact hs.setGang ⟨hlen, htail, hbeat⟩
  | @resumed g G J later hG hqueue hstate =>
    obtain ⟨hlen, htail, hbeat⟩ := hs g G hG
    rw [hqueue] at hlen htail hbeat
    exact hs.setGang ⟨hlen, htail, hbeat⟩

end

end Sys2Proof.Machine
end

section
/-! PROOFS. How many live jobs there are of a kind: the ids stay distinct (R116), and each block's refs counts the jobs that
name it (R13). -/

namespace Sys2Proof.Machine

/-! ## Counting the live jobs -/

/-- The queue of a gang slot; a slot without a gang has none. -/
def State.queueOf (s : State) (k : GangId) : List Job := (s.gang k).elim [] Gang.queue

/-- How many live jobs are of a kind. -/
def State.tally (s : State) (p : Job → Bool) : Nat := (s.liveJobs.map Prod.snd).countP p

theorem State.queueOf_some {s : State} {k : GangId} {G : Gang} (h : s.gang k = some G) : s.queueOf k = G.queue := by
  rw [State.queueOf, h]
  rfl

theorem State.queueOf_none {s : State} {k : GangId} (h : s.gang k = none) : s.queueOf k = [] := by
  rw [State.queueOf, h]
  rfl

/-- The live jobs gang by gang. -/
theorem State.liveJobs_eq (s : State) :
    s.liveJobs = (List.finRange 8).flatMap fun k => (s.queueOf k).map fun J => (k, J) := by
  have h (l : List GangId) : ((l.filterMap fun g => (s.gang g).map fun G => (g, G)).flatMap
      fun e => e.2.queue.map fun J => (e.1, J)) = l.flatMap fun k => (s.queueOf k).map fun J => (k, J) := by
    induction l with
    | nil => rfl
    | cons k ks ih =>
      rw [List.filterMap_cons, List.flatMap_cons, ← ih, State.queueOf]
      cases s.gang k with
      | none => rfl
      | some G => rfl
  exact h _

theorem State.tally_eq (s : State) (p : Job → Bool) :
    s.tally p = ((List.finRange 8).map fun k => (s.queueOf k).countP p).sum := by
  rw [State.tally, State.liveJobs_eq, List.map_flatMap, List.countP_flatMap]
  congr 2
  funext k
  simp [Function.comp_def]

/-- What does not look at a job's state. -/
def Stateless (p : Job → Bool) : Prop := ∀ J : Job, p J.bare = p J

theorem SameJobs.countP {q q' : List Job} (h : SameJobs q q') {p : Job → Bool} (hp : Stateless p) :
    q'.countP p = q.countP p := by
  have hmap := congrArg (List.countP id) (h.map_eq hp)
  rwa [List.countP_map, List.countP_map] at hmap

/-- Jobs leave the live jobs, and the refs of their blocks decrease with them. -/
structure Removes (s t : State) (jobs : List Job) : Prop where
  tally : ∀ p, Stateless p → t.tally p + jobs.countP p = s.tally p
  refs : ∀ i, (t.block i).map Block.refs = (s.block i).map fun b => b.refs - countNaming i jobs
  nextId : t.nextId = s.nextId

section
variable {s t u : State} {g : GangId}

theorem State.tally_congr (h : ∀ k, SameJobs (s.queueOf k) (t.queueOf k)) {p : Job → Bool} (hp : Stateless p) :
    t.tally p = s.tally p := by
  rw [State.tally_eq, State.tally_eq]
  congr 2
  funext k
  exact (h k).countP hp

/-- One gang's queue differs. -/
theorem State.tally_update (h : ∀ k, k ≠ g → SameJobs (s.queueOf k) (t.queueOf k)) {p : Job → Bool} (hp : Stateless p) :
    t.tally p + (s.queueOf g).countP p = s.tally p + (t.queueOf g).countP p := by
  rw [State.tally_eq, State.tally_eq]
  exact sum_map_update (fun k hk => (h k hk).countP hp) (List.nodup_finRange 8) (List.mem_finRange g)

theorem Works.queues (h : Works s t) (k : GangId) : SameJobs (s.queueOf k) (t.queueOf k) := by
  cases hG : s.gang k with
  | none =>
    rw [State.queueOf_none hG, State.queueOf_none (h.free k hG)]
    exact .refl []
  | some G =>
    obtain ⟨H, hH, hGH⟩ := h.formed k G hG
    rw [State.queueOf_some hG, State.queueOf_some hH]
    obtain ⟨_, _, _, rfl, -, hjobs⟩ := hGH
    exact hjobs

theorem RenewedBut.queues (h : RenewedBut g s t) {k : GangId} (hk : k ≠ g) : SameJobs (s.queueOf k) (t.queueOf k) := by
  cases hG : s.gang k with
  | none =>
    rw [State.queueOf_none hG, State.queueOf_none (h.free k hk hG)]
    exact .refl []
  | some G =>
    obtain ⟨H, hH, hGH⟩ := h.formed k hk G hG
    rw [State.queueOf_some hG, State.queueOf_some hH]
    obtain ⟨_, _, _, rfl, -, hjobs⟩ := hGH
    exact hjobs

theorem Quiet.queues (h : Quiet s t) (k : GangId) : SameJobs (s.queueOf k) (t.queueOf k) := by
  cases hG : s.gang k with
  | none =>
    rw [State.queueOf_none hG, State.queueOf_none (h.free k hG)]
    exact .refl []
  | some G =>
    obtain ⟨H, hH, hGH⟩ := h.formed k G hG
    rw [State.queueOf_some hG, State.queueOf_some hH, hGH.queue]
    exact .refl _

theorem Removes.nothing (hqueues : ∀ k, SameJobs (s.queueOf k) (t.queueOf k))
    (hrefs : ∀ i, (t.block i).map Block.refs = (s.block i).map Block.refs) (hnext : t.nextId = s.nextId) :
    Removes s t [] :=
  ⟨fun _ hp => State.tally_congr hqueues hp, fun i => by rw [hrefs]; rfl, hnext⟩

theorem Removes.trans {jobs jobs' : List Job} (h : Removes s t jobs) (k : Removes t u jobs') : Removes s u (jobs ++ jobs') where
  tally p hp := by
    rw [List.countP_append, ← h.tally p hp, ← k.tally p hp]
    omega
  refs i := by
    have hmap (o : Option Block) (n : Nat) : (o.map fun b => b.refs - n) = (o.map Block.refs).map (· - n) := by
      rw [Option.map_map]
      rfl
    have hcount : countNaming i (jobs ++ jobs') = countNaming i jobs + countNaming i jobs' := by
      simp [countNaming]
    rw [k.refs, hmap, h.refs, Option.map_map, hcount]
    simp only [Function.comp_def, Nat.sub_sub]
  nextId := k.nextId.trans h.nextId

/-- The queue of gang `g` loses the jobs `jobs`. -/
theorem Removes.of_queue {jobs : List Job} (hothers : RenewedBut g s t)
    (hqueue : ∀ p, Stateless p → (t.queueOf g).countP p + jobs.countP p = (s.queueOf g).countP p)
    (hrefs : ∀ i, (t.block i).map Block.refs = (s.block i).map fun b => b.refs - countNaming i jobs)
    (hnext : t.nextId = s.nextId) : Removes s t jobs := by
  refine ⟨fun p hp => ?_, hrefs, hnext⟩
  have hupdate := State.tally_update (fun k hk => hothers.queues hk) hp
  have := hqueue p hp
  omega

/-! ## What each kind of step removes -/

theorem dropsOf_append_keepOf (o : LastOutcome) (later : List Job) : dropsOf o later ++ keepOf o later = later := by
  unfold dropsOf keepOf
  split_ifs
  · rfl
  · exact List.takeWhile_append_dropWhile

theorem Removes.same (s : State) : Removes s s [] := .nothing (fun _ => .refl _) (fun _ => rfl) rfl

theorem State.departHead_refs {G : Gang} {J : Job} {later : List Job} (hG : s.gang g = some G) (hq : G.queue = J :: later)
    (o : LastOutcome) (notice : Option NoticeBody) (i : SlotId) :
    ((s.departHead g o notice).block i).map Block.refs =
      (s.block i).map fun b => b.refs - countNaming i (J :: dropsOf o later) := by
  have hrefs := (State.departing_spec (J := J) hG later o notice).refs i
  by_cases hkeep : keepOf o later = []
  · obtain ⟨K, hK, hKeq, hdone⟩ := State.departHead_last hG hq hkeep notice
    rw [hdone, State.block, (State.syncEmptied_behind _ g).2.1]
    exact hrefs
  · obtain ⟨K, hK, hKeq, hdone⟩ := State.departHead_more hG hq hkeep notice
    rw [hdone, State.activate_refs (State.setGang_gang_self ..)]
    exact hrefs

theorem Removes.departHead {G : Gang} {J : Job} {later : List Job} (hG : s.gang g = some G) (hq : G.queue = J :: later)
    (o : LastOutcome) (notice : Option NoticeBody) : Removes s (s.departHead g o notice) (J :: dropsOf o later) := by
  obtain ⟨hothers, H, hH, hjobs, -⟩ := State.departHead_queues hG hq o notice
  refine .of_queue hothers (fun p hp => ?_) (State.departHead_refs hG hq o notice)
    (s.engine_departHead (p := False) g o notice).fields.2.2.2.2.1
  rw [State.queueOf_some hH, State.queueOf_some hG, hq, hjobs.countP hp]
  conv_rhs => rw [← dropsOf_append_keepOf o later]
  simp only [List.countP_cons, List.countP_append]
  omega

theorem Removes.departQueued {G : Gang} {before behind : List Job} {J : Job} (hG : s.gang g = some G)
    (hq : G.queue = before ++ J :: behind) :
    Removes s (s.departQueued g before J behind) (J :: behind.takeWhile Job.afterOk) := by
  obtain ⟨hgang, hothers, hblocks, -⟩ := State.departQueued_spec hG before J behind _ rfl
  refine .of_queue (.of_eq hothers) (fun p hp => ?_) (fun i => ?_)
    (State.engine_departQueued (p := False) hG hq).fields.2.2.2.2.1
  · rw [State.queueOf_some hgang, State.queueOf_some hG, hq]
    conv_rhs => rw [← List.takeWhile_append_dropWhile (p := Job.afterOk) (l := behind)]
    simp only [List.countP_cons, List.countP_append]
    omega
  · rw [hblocks, Option.map_map]
    rfl

theorem Removes.halting {G : Gang} {J : Job} {behind : List Job} (hG : s.gang g = some G) (hq : G.queue = J :: behind) :
    Removes s (s.halting g G J behind) behind := by
  refine .of_queue (RenewedBut.trans (.of_eq fun k hk => s.haltBehind_gang_ne behind hk) (.setGang _ g _)) (fun p hp => ?_)
    (s.haltBehind_refs g behind) (s.onlyWork_haltBehind g behind).fields.2.2.2.2.2.1
  rw [State.halting, State.queueOf_some (State.setGang_gang_self ..), State.queueOf_some hG, hq]
  simp only [List.countP_cons, List.countP_nil]
  omega

/-- A gang's record is replaced by one with the same jobs. -/
theorem Removes.setGang {G H : Gang} (hG : s.gang g = some G) (hjobs : SameJobs G.queue H.queue) :
    Removes s (s.setGang g (some H)) [] := by
  refine .of_queue (.setGang s g _) (fun p hp => ?_) (fun _ => rfl) rfl
  rw [State.queueOf_some (State.setGang_gang_self ..), State.queueOf_some hG, hjobs.countP hp]
  rfl

/-- One job joins the live jobs, and its block's refs increases (R13, R119). -/
structure Adds (s t : State) (J : Job) : Prop where
  tally : ∀ p, Stateless p → t.tally p = s.tally p + (p J).toNat
  refs : ∀ i, (t.block i).map Block.refs = (s.block i).map fun b => b.refs + if J.slot = i then 1 else 0
  nextId : t.nextId = nextCandidate J.id

theorem Adds.accept {G : Gang} (hG : s.gang g = some G) (J : Job) : Adds s (s.accept g J G.queue.isEmpty) J := by
  have hgang : (s.queued g J).gang g = some { G with queue := G.queue ++ [J] } := by
    rw [State.queued, State.modGang_gang_self]
    exact congrArg _ hG
  have hothers : RenewedBut g s (s.queued g J) := .of_eq fun k hk => State.modGang_gang_ne _ _ hk
  have hrefs (i : SlotId) : ((s.queued g J).block i).map Block.refs =
      (s.block i).map fun b => b.refs + if J.slot = i then 1 else 0 := by
    show ((({ s with nextId := nextCandidate J.id } : State).modBlock J.slot _).block i).map _ = _
    by_cases hi : i = J.slot
    · subst hi
      rw [State.modBlock_block_self, Option.map_map, if_pos rfl]
      rfl
    · rw [State.modBlock_block_ne _ _ hi, if_neg (Ne.symm hi)]
      rfl
  have hqueued : Adds s (s.queued g J) J := by
    refine ⟨fun p hp => ?_, hrefs, rfl⟩
    have hupdate := State.tally_update (fun k hk => hothers.queues hk) hp
    rw [State.queueOf_some hG, State.queueOf_some hgang] at hupdate
    simp only [List.countP_append, List.countP_singleton] at hupdate
    cases hpJ : p J <;> simp [hpJ] at hupdate ⊢ <;> omega
  rw [State.accept_cases]
  split_ifs
  · have hactive : Removes (s.queued g J) ((s.queued g J).activate g) [] := by
      obtain ⟨H, hH, hjobs, -⟩ := State.activate_jobs hgang
      refine .of_queue (.activate hgang) (fun p hp => ?_) (fun i => ?_)
        (State.engine_activate (p := False) _ g).fields.2.2.2.2.1
      · rw [State.queueOf_some hH, State.queueOf_some hgang, hjobs.countP hp]
        rfl
      · rw [State.activate_refs hgang]
        rfl
    refine ⟨fun p hp => ?_, fun i => ?_, hactive.nextId.trans hqueued.nextId⟩
    · rw [← hqueued.tally p hp, ← hactive.tally p hp]
      rfl
    · rw [hactive.refs, ← hqueued.refs i]
      rfl
  · exact hqueued

/-- A step of the work adds the job that it accepts, or removes some. -/
theorem WorkStep.jobs (h : WorkStep s t) :
    (∃ jobs, Removes s t jobs) ∨
      ∃ (J : Job) (b : Block), Adds s t J ∧ J.id = s.issueId ∧ s.block J.slot = some b := by
  cases h with
  | quiet h => exact .inl ⟨[], .nothing h.queues (fun i => by rw [h.block]) h.nextId⟩
  | departed g o notice =>
    refine .inl ?_
    cases hG : s.gang g with
    | none =>
      rw [State.departHead, hG]
      exact ⟨_, .same s⟩
    | some G =>
      cases hq : G.queue with
      | nil =>
        rw [State.departHead, hG]
        dsimp only
        rw [hq]
        exact ⟨_, .same s⟩
      | cons J later => exact ⟨_, .departHead hG hq o notice⟩
  | @completed g G J later B hactive hflight =>
    exact .inl ⟨_, .setGang hactive.1 (by rw [hactive.2.1]; exact .head J later .paused)⟩
  | @formed g G hfree hqueue hbeat =>
    refine .inl ⟨[], .of_queue (.setGang s g _) (fun p _ => ?_) (fun _ => rfl) rfl⟩
    rw [State.queueOf_some (State.setGang_gang_self ..), State.queueOf_none hfree, hqueue]
    rfl
  | @dissolved g G hG hqueue =>
    refine .inl ⟨[], .of_queue (.setGang s g _) (fun p _ => ?_) (fun _ => rfl) rfl⟩
    rw [State.queueOf_none (State.setGang_gang_self ..), State.queueOf_some hG, hqueue]
    rfl
  | submitted hG hroom hid hstate hb => exact .inr ⟨_, _, .accept hG _, hid, hb⟩
  | left hG hqueue hbefore => exact .inl ⟨_, .departQueued hG hqueue⟩
  | halting hG hqueue => exact .inl ⟨_, .halting hG hqueue⟩
  | turned hG hrun => exact .inl ⟨_, .setGang hG (.refl _)⟩
  | paused hG hqueue => exact .inl ⟨_, .setGang hG (by rw [hqueue]; exact .head _ _ _)⟩
  | resumed hG hqueue => exact .inl ⟨_, .setGang hG (by rw [hqueue]; exact .head _ _ _)⟩

end

end Sys2Proof.Machine
end

section
/-! PROOFS. Queues, job numbers and refs after every step (R13, R116, R121). -/

namespace Sys2Proof.Machine

/-! ## The refs of the blocks -/

theorem countNaming_liveJobs (s : State) (i : SlotId) :
    countNaming i (s.liveJobs.map Prod.snd) = s.tally fun J => J.slot == i := by
  rw [countNaming, State.tally, List.countP_eq_length_filter]

/-- An absent block counts no job. -/
theorem State.refsCount_iff (s : State) :
    s.RefsCount ↔ ∀ i : SlotId, ((s.block i).map Block.refs).getD 0 = s.tally fun J => J.slot == i := by
  refine forall_congr' fun i => ?_
  rw [countNaming_liveJobs]
  cases hb : s.block i with
  | none => simp [eq_comm]
  | some b => simp

section
variable {s t : State}

theorem stateless_slot (i : SlotId) : Stateless fun J => J.slot == i := fun _ => rfl

theorem stateless_id (a : Nat) : Stateless fun J => J.id == a := fun _ => rfl

theorem Removes.refsCount {jobs : List Job} (h : Removes s t jobs) (hs : s.RefsCount) : t.RefsCount := by
  rw [State.refsCount_iff] at hs ⊢
  intro i
  have htally := h.tally _ (stateless_slot i)
  have hcount : countNaming i jobs = jobs.countP fun J => J.slot == i := by
    rw [countNaming, List.countP_eq_length_filter]
  have hi := hs i
  rw [h.refs, hcount]
  cases hb : s.block i with
  | none =>
    rw [hb] at hi
    simp only [Option.map_none, Option.getD_none] at hi ⊢
    omega
  | some b =>
    rw [hb] at hi
    simp only [Option.map_some, Option.getD_some] at hi ⊢
    omega

theorem Adds.refsCount {J : Job} {b : Block} (h : Adds s t J) (hb : s.block J.slot = some b) (hs : s.RefsCount) :
    t.RefsCount := by
  rw [State.refsCount_iff] at hs ⊢
  intro i
  have hi := hs i
  rw [h.refs, h.tally _ (stateless_slot i)]
  by_cases hslot : J.slot = i
  · subst hslot
    rw [hb] at hi ⊢
    simp only [Option.map_some, Option.getD_some] at hi ⊢
    simp [hi]
  · have hother : (J.slot == i) = false := by simpa using hslot
    rw [if_neg hslot, ← hi, hother]
    simp

theorem WorkStep.refsCount (h : WorkStep s t) (hs : s.RefsCount) : t.RefsCount := by
  rcases h.jobs with ⟨jobs, hjobs⟩ | ⟨J, b, hadds, -, hb⟩
  · exact hjobs.refsCount hs
  · exact hadds.refsCount hb hs

/-- Refs and live jobs as before. -/
theorem State.RefsCount.congr (hs : s.RefsCount) (hqueues : ∀ k, SameJobs (s.queueOf k) (t.queueOf k))
    (hrefs : ∀ i, ((t.block i).map Block.refs).getD 0 = ((s.block i).map Block.refs).getD 0) : t.RefsCount := by
  rw [State.refsCount_iff] at hs ⊢
  intro i
  rw [hrefs, hs, State.tally_congr hqueues (stateless_slot i)]

theorem SameTable.queues (h : SameTable s t) (k : GangId) : SameJobs (s.queueOf k) (t.queueOf k) := by
  rw [State.queueOf, State.queueOf, h.gang]
  exact .refl _

/-- An effect on the store changes no refs; a block that appears or disappears has none (R11, R12). -/
theorem StoreEffect.refs (h : StoreEffect s t) (i : SlotId) :
    ((t.block i).map Block.refs).getD 0 = ((s.block i).map Block.refs).getD 0 := by
  have hpack (u : State) (stopped : Bool) : (u.endPack stopped).block i = u.block i := by
    unfold State.endPack
    cases u.pack.link with
    | none => rfl
    | some x => exact u.notify_block x _ i
  cases h with
  | @created j name size base free fill hslot hsize hidle hfit =>
    have hnone : s.block j = none := (State.freeSlot_lowest hslot).1
    by_cases hij : i = j
    · subst hij
      rw [hnone]
      simp [State.create, State.block, newBlock]
    · have hne : j.val ≠ i.val := fun e => hij (Fin.ext e.symm)
      simp [State.create, State.block, hne]
  | @destroyed j b hb hready hrefs =>
    show (((s.setBlock j none).block i).map Block.refs).getD 0 = _
    by_cases hij : i = j
    · subst hij
      rw [State.setBlock_block_self, hb]
      exact hrefs.symm
    · rw [State.setBlock_block_ne _ _ hij]
  | written | filled | packStarted | packStopping => rfl
  | packEnded stopped => rw [hpack]
  | @visited j b hrun hmove hb =>
    unfold State.visitBlock
    split
    · rfl
    · split_ifs
      · rfl
      · show (((s.modBlock j _).block i).map Block.refs).getD 0 = _
        rw [State.modBlock_map]
        exact fun _ => rfl
  | @moved m hm =>
    have hmoved : (((s.finishMove m).evaluate m.slot).block i).map Block.refs = (s.block i).map Block.refs :=
      (State.evaluate_refs _ m.slot i).trans (State.modBlock_map (f := fun b => { b with base := m.dst, dest := none })
        (fun _ => rfl) s m.slot i)
    split_ifs
    · rw [hpack, hmoved]
    · rw [hmoved]

theorem StoreEffect.queues (h : StoreEffect s t) (k : GangId) : SameJobs (s.queueOf k) (t.queueOf k) := by
  rcases h.table with hsame | ⟨m, -, hsame⟩
  · exact hsame.queues k
  · exact (((s.sameTable_finishMove m).queues k).trans ((Works.evaluate _ m.slot).queues k)).trans (hsame.queues k)

end

/-! ## The teardown -/

theorem State.tornDown_queueOf (s : State) (x : LinkId) (k : GangId) :
    (s.tornDown x).queueOf k = if s.ownedBy x k then [] else s.queueOf k := by
  rw [State.queueOf, State.tornDown_gang]
  split_ifs
  · rfl
  · rfl

/-- The jobs of the gangs that go, kind by kind. -/
theorem State.tornDown_tally (s : State) (x : LinkId) (p : Job → Bool) :
    (s.tornDown x).tally p + (s.jobsOf (s.ownedBy x)).countP p = s.tally p := by
  have h (l : List GangId) :
      (l.map fun k => ((s.tornDown x).queueOf k).countP p).sum +
        ((((l.flatMap fun k => (s.queueOf k).map fun J => (k, J)).filter fun e => s.ownedBy x e.1).map Prod.snd).countP p) =
      (l.map fun k => (s.queueOf k).countP p).sum := by
    induction l with
    | nil => rfl
    | cons k ks ih =>
      have hhead : ((((s.queueOf k).map fun J => (k, J)).filter fun e => s.ownedBy x e.1).map Prod.snd).countP p +
          ((s.tornDown x).queueOf k).countP p = (s.queueOf k).countP p := by
        rw [State.tornDown_queueOf]
        cases hown : s.ownedBy x k with
        | false => simp [List.filter_map, Function.comp_def, hown]
        | true => simp [List.filter_map, Function.comp_def, hown]
      simp only [List.map_cons, List.sum_cons, List.flatMap_cons, List.filter_append, List.map_append, List.countP_append]
      omega
  rw [State.tally_eq, State.tally_eq, State.jobsOf, State.liveJobs_eq]
  exact h _

theorem Removes.teardown (s : State) (x : LinkId) : Removes s (s.teardown x) (s.jobsOf (s.ownedBy x)) := by
  have htorn : Removes s (s.tornDown x) (s.jobsOf (s.ownedBy x)) :=
    ⟨fun p _ => s.tornDown_tally x p, fun i => by rw [State.tornDown_block, Option.map_map]; rfl, rfl⟩
  have hevaluated : Removes (s.tornDown x) (s.teardown x) [] := by
    refine .nothing (Works.evaluates (s.touchedBy x) _).queues (fun i => ?_)
      (State.onlyWork_evaluates (s.touchedBy x) (s.tornDown x)).fields.2.2.2.2.2.1
    obtain ⟨hnone, hsome⟩ := State.evaluates_block (s.touchedBy x) (s.tornDown x) i
    rw [State.teardown_eq]
    cases hb : (s.tornDown x).block i with
    | none => rw [hnone hb]
    | some b =>
      obtain ⟨c, hc, hbc⟩ := hsome b hb
      rw [Option.mem_def.1 hc, Option.map_some, Option.map_some, hbc.refs]
  have := htorn.trans hevaluated
  rwa [List.append_nil] at this

theorem State.tally_noGangs {s : State} (h : ∀ k, s.gang k = none) (p : Job → Bool) : s.tally p = 0 := by
  rw [State.tally_eq]
  refine List.sum_eq_zero fun n hn => ?_
  obtain ⟨k, -, rfl⟩ := List.mem_map.1 hn
  rw [State.queueOf_none (h k)]
  rfl

theorem keptBehindLinks_refsCount : KeptBehindLinks State.RefsCount where
  wires := by
    rintro s t ⟨_, _, _, _, _, _, _, rfl⟩ hs
    exact hs
  store _ h hs := hs.congr h.queues h.refs
  gang _ h hs := h.work.keeps (fun _ _ => WorkStep.refsCount) hs
  teardown s x hs := (Removes.teardown s x).refsCount hs
  cleared s _ := by
    rw [State.refsCount_iff]
    intro i
    rw [State.tally_noGangs fun k => by simp [State.gang, State.cleared], State.cleared_block]
    cases s.block i <;> rfl
  restarted s rsel _ _ _ _ _ _ _ := by
    rw [State.refsCount_iff]
    intro i
    rw [State.tally_noGangs fun k => by simp [State.gang, State.fullRestart]]
    simp [State.block, State.fullRestart]
  startupEnded _ _ hs := hs
  sensed _ _ _ _ hs := hs
  holdRecorded _ _ _ _ hs := hs

/-! ## The job numbers -/

theorem State.count_liveIds (s : State) (a : Nat) : s.liveIds.count a = s.tally fun J => J.id == a := by
  rw [State.tally, State.liveIds, List.count, List.countP_map, List.countP_map]
  rfl

theorem State.idsDistinct_iff (s : State) :
    s.IdsDistinct ↔ (∀ a, (s.tally fun J => J.id == a) ≤ 1) ∧ (s.tally fun J => J.id == 0) = 0 := by
  simp only [State.IdsDistinct, List.nodup_iff_count_le_one, ← List.count_eq_zero, State.count_liveIds]

/-- At most 48 jobs are live: 8 gangs with 6 jobs each (R121). -/
theorem State.QueuesShape.liveJobs_le {s : State} (hs : s.QueuesShape) : s.liveJobs.length ≤ 48 := by
  have hlen : s.liveJobs.length = s.tally fun _ => true := by simp [State.tally]
  have hall : ∀ n ∈ (List.finRange 8).map fun k => (s.queueOf k).countP fun _ => true, n ≤ 6 := by
    intro n hn
    obtain ⟨k, -, rfl⟩ := List.mem_map.1 hn
    rw [List.countP_true]
    cases hG : s.gang k with
    | none => simp [State.queueOf_none hG]
    | some G =>
      rw [State.queueOf_some hG]
      exact (hs k G hG).1
  rw [hlen, State.tally_eq]
  simpa using List.sum_le_card_nsmul _ 6 hall

/-- Queues of their shape and sound job numbers. -/
structure State.Numbered (s : State) : Prop where
  shape : s.QueuesShape
  numbers : s.NumberingSound

section
variable {s t : State}

theorem Removes.idsDistinct {jobs : List Job} (h : Removes s t jobs) (hs : s.IdsDistinct) : t.IdsDistinct := by
  rw [State.idsDistinct_iff] at hs ⊢
  obtain ⟨hone, hzero⟩ := hs
  refine ⟨fun a => ?_, ?_⟩
  · have := h.tally _ (stateless_id a)
    have := hone a
    omega
  · have := h.tally _ (stateless_id 0)
    omega

theorem Removes.numbering {jobs : List Job} (h : Removes s t jobs) (hs : s.NumberingSound) : t.NumberingSound := by
  obtain ⟨hlow, hhigh, hids⟩ := hs
  exact ⟨h.nextId ▸ hlow, h.nextId ▸ hhigh, h.idsDistinct hids⟩

/-- The issued id is a free candidate (R116). -/
theorem Adds.numbering {J : Job} (h : Adds s t J) (hid : J.id = s.issueId) (hs : s.Numbered) : t.NumberingSound := by
  obtain ⟨hlow, hhigh, hids⟩ := hs.numbers
  obtain ⟨k, hk, hissue, hfree, -⟩ := State.issueId_spec hlow hhigh hs.shape.liveJobs_le
  have hzero : s.issueId ≠ 0 := by
    rw [hissue]
    unfold candidateFrom
    omega
  obtain ⟨hnext, hnext'⟩ := nextCandidate_bounds J.id
  refine ⟨h.nextId ▸ hnext, h.nextId ▸ hnext', ?_⟩
  rw [State.idsDistinct_iff] at hids ⊢
  obtain ⟨hone, hnone⟩ := hids
  have hfresh : (s.tally fun K => K.id == J.id) = 0 := by
    rw [← State.count_liveIds, List.count_eq_zero, hid]
    exact hfree
  refine ⟨fun a => ?_, ?_⟩
  · rw [h.tally _ (stateless_id a)]
    by_cases ha : J.id = a
    · subst ha
      simp [hfresh]
    · have hother : (J.id == a) = false := by simpa using ha
      simpa [hother] using hone a
  · rw [h.tally _ (stateless_id 0), hnone, hid]
    simp [hzero]

theorem WorkStep.numbered (h : WorkStep s t) (hs : s.Numbered) : t.Numbered := by
  refine ⟨h.queuesShape hs.shape, ?_⟩
  rcases h.jobs with ⟨jobs, hjobs⟩ | ⟨J, b, hadds, hid, -⟩
  · exact hjobs.numbering hs.numbers
  · exact hadds.numbering hid hs

theorem State.Numbered.of_queues (hs : s.Numbered) (hshape : t.QueuesShape)
    (hqueues : ∀ k, SameJobs (s.queueOf k) (t.queueOf k)) (hnext : t.nextId = s.nextId) : t.Numbered := by
  obtain ⟨hlow, hhigh, hids⟩ := hs.numbers
  refine ⟨hshape, hnext ▸ hlow, hnext ▸ hhigh, ?_⟩
  rw [State.idsDistinct_iff] at hids ⊢
  exact ⟨fun a => by rw [State.tally_congr hqueues (stateless_id a)]; exact hids.1 a,
    by rw [State.tally_congr hqueues (stateless_id 0)]; exact hids.2⟩

theorem SameTable.queuesShape (h : SameTable s t) (hs : s.QueuesShape) : t.QueuesShape := by
  intro k G hG
  rw [h.gang] at hG
  exact hs k G hG

theorem StoreEffect.numbered (h : StoreEffect s t) (hs : s.Numbered) : t.Numbered := by
  refine hs.of_queues ?_ h.queues ?_
  · rcases h.table with hsame | ⟨m, -, hsame⟩
    · exact hsame.queuesShape hs.shape
    · exact hsame.queuesShape ((Works.evaluate _ m.slot).queuesShape ((s.sameTable_finishMove m).queuesShape hs.shape))
  · rcases h.table with hsame | ⟨m, -, hsame⟩
    · exact hsame.nextId
    · exact hsame.nextId.trans (State.onlyWork_evaluate (s.finishMove m) m.slot).fields.2.2.2.2.2.1

theorem State.numbered_noGangs (h : ∀ k, s.gang k = none) (hnext : s.nextId = 1) : s.Numbered := by
  refine ⟨fun k G hG => ?_, by rw [hnext], by rw [hnext]; decide, ?_⟩
  · cases (h k).symm.trans hG
  · rw [State.idsDistinct_iff]
    simp [State.tally_noGangs h]

theorem State.QueuesShape.tornDown (hs : s.QueuesShape) (x : LinkId) : (s.tornDown x).QueuesShape := by
  intro k G hG
  rw [State.tornDown_gang] at hG
  split_ifs at hG
  · cases hG
  · exact hs k G hG

end

theorem keptBehindLinks_numbered : KeptBehindLinks State.Numbered where
  wires := by
    rintro s t ⟨_, _, _, _, _, _, _, rfl⟩ hs
    exact ⟨hs.shape, hs.numbers⟩
  store _ h hs := h.numbered hs
  gang _ h hs := h.work.keeps (fun _ _ => WorkStep.numbered) hs
  teardown s x hs :=
    ⟨(s.works_teardown x).queuesShape (hs.shape.tornDown x), (Removes.teardown s x).numbering hs.numbers⟩
  cleared s _ := State.numbered_noGangs (fun k => by simp [State.gang, State.cleared]) rfl
  restarted s rsel _ _ _ _ _ _ _ := State.numbered_noGangs (fun k => by simp [State.gang, State.fullRestart]) rfl
  startupEnded _ _ hs := ⟨hs.shape, hs.numbers⟩
  sensed _ _ _ _ hs := ⟨hs.shape, hs.numbers⟩
  holdRecorded _ _ _ _ hs := ⟨hs.shape, hs.numbers⟩

end Sys2Proof.Machine
end

section
/-! PROOFS. The access records after every step (R26): what leaves the records as they are, and what a grant evaluation makes
of them. -/

namespace Sys2Proof.Machine

/-! ## Records that stay -/

/-- The access record of a block, and its destination while it is MOVING. -/
def Block.record (b : Block) : List GangId × Option GangId × List Waiter × Option Nat :=
  (b.readers, b.writer, b.waiters, b.dest)

theorem Block.record_eq_iff {b c : Block} :
    c.record = b.record ↔ c.readers = b.readers ∧ c.writer = b.writer ∧ c.waiters = b.waiters ∧ c.dest = b.dest := by
  simp [Block.record]

/-- No access record differs. -/
def SameRecords (s t : State) : Prop := ∀ i, (t.block i).map Block.record = (s.block i).map Block.record

section
variable {s t u : State} {g : GangId}

theorem SameRecords.trans (h : SameRecords s t) (k : SameRecords t u) : SameRecords s u := fun i => (k i).trans (h i)

theorem SameRecords.of_blocks (h : ∀ i, t.block i = s.block i) : SameRecords s t := fun i => by rw [h]

theorem SameRecords.of_dir (h : t.dir = s.dir) : SameRecords s t := .of_blocks fun i => by rw [State.block, h]; rfl

theorem SameRecords.of_wires (h : OnlyWires s t) : SameRecords s t := by
  obtain ⟨_, _, _, _, _, _, _, rfl⟩ := h
  exact .of_dir rfl

theorem SameRecords.back (h : SameRecords s t) {i : SlotId} {c : Block} (hc : c ∈ t.block i) :
    ∃ b ∈ s.block i, c.record = b.record := by
  have hi := h i
  rw [Option.mem_def.1 hc] at hi
  obtain ⟨b, hb, hbc⟩ := Option.map_eq_some_iff.1 hi.symm
  exact ⟨b, hb, hbc.symm⟩

theorem SameRecords.modBlock (s : State) (i : SlotId) {f : Block → Block} (hf : ∀ b, (f b).record = b.record) :
    SameRecords s (s.modBlock i f) :=
  State.modBlock_map hf s i

theorem SameRecords.unref (s : State) (i : SlotId) : SameRecords s (s.unref i) := .modBlock s i fun _ => rfl

theorem SameRecords.dropJobs {G : Gang} (hG : s.gang g = some G) (cause : Nat) (jobs : List Job) :
    SameRecords s (s.dropJobs g cause jobs) := fun i => by
  rw [(State.dropJobs_dropped hG cause jobs).blocks, Option.map_map]
  rfl

theorem SameRecords.haltBehind (s : State) (g : GangId) (behind : List Job) : SameRecords s (s.haltBehind g behind) := by
  induction behind with
  | nil => exact .of_dir rfl
  | cons K ks ih => exact ih.trans (.unref _ K.slot)

theorem SameRecords.queued (s : State) (g : GangId) (J : Job) : SameRecords s (s.queued g J) :=
  .modBlock { s with nextId := nextCandidate J.id } J.slot fun _ => rfl

theorem SameRecords.departQueued {G : Gang} (hG : s.gang g = some G) (before : List Job) (J : Job) (behind : List Job) :
    SameRecords s (s.departQueued g before J behind) := fun i => by
  obtain ⟨-, -, hblocks, -⟩ := State.departQueued_spec hG before J behind _ rfl
  rw [hblocks, Option.map_map]
  rfl

/-- The active job is out of the queue, and the gang's entries are out of the record (R123 step 1). -/
def State.released (s : State) (g : GangId) (J : Job) (keep : List Job) : State :=
  (s.modGang g fun G => { G with queue := keep, beat := none }).release J.slot g

/-- Behind the release a departure changes no record before its last step (R123 steps 2 to 4). -/
theorem SameRecords.departing {G : Gang} (hG : s.gang g = some G) (J : Job) (later : List Job) (o : LastOutcome)
    (notice : Option NoticeBody) : SameRecords (s.released g J (keepOf o later)) (s.departing g J later o notice) := by
  have hlast : SameRecords (s.released g J (keepOf o later)) ((s.removeHead g J (keepOf o later)).setLast g o) :=
    .unref (s.released g J (keepOf o later)) J.slot
  have hgang : ((s.removeHead g J (keepOf o later)).setLast g o).gang g =
      some { G with queue := keepOf o later, beat := none, last := o } := by
    rw [State.setLast, State.modGang_gang_self, State.removeHead_gang hG]
    rfl
  cases notice with
  | none => exact hlast.trans (.dropJobs hgang _ _)
  | some body =>
    rw [State.departing, Option.elim, State.notifyOwner_eq hgang]
    exact (hlast.trans (.of_blocks fun i => State.notify_block ..)).trans
      (.dropJobs ((State.notify_gang ..).trans hgang) _ _)

/-- The departure of the last job changes no record behind the release. -/
theorem SameRecords.rested (s : State) (g : GangId) (K : Gang) (sent : Bool) :
    SameRecords s ((s.rested g K sent).syncEmptied g) :=
  .of_dir ((s.rested g K sent).syncEmptied_behind g).2.1

/-! ## The records that a grant evaluation leaves -/

/-- A grant evaluation leaves the other blocks alone. -/
theorem State.evaluate_block_ne (s : State) {i j : SlotId} (hj : j ≠ i) : (s.evaluate i).block j = s.block j := by
  have h := s.evaluate_cases i
  generalize s.evaluate i = t at h ⊢
  cases h with
  | same => rfl
  | granted => rw [State.handGrants_block, State.setBlock_block_ne _ _ hj]

/-- No writer stands beside a reader, and a MOVING block has no holder (R26). -/
def Block.Exclusive (b : Block) : Prop :=
  (b.writer.isSome = true → b.readers = []) ∧ (b.dest.isSome = true → b.held = false)

theorem Block.Exclusive.congr {b c : Block} (h : c.record = b.record) (hb : b.Exclusive) : c.Exclusive := by
  obtain ⟨hr, hw, -, hd⟩ := Block.record_eq_iff.1 h
  rw [Block.Exclusive, Block.held, hr, hw, hd]
  exact hb

theorem Block.AccessSound.congr {b c : Block} (h : c.record = b.record) (hb : b.AccessSound) : c.AccessSound := by
  obtain ⟨hr, hw, hq, hd⟩ := Block.record_eq_iff.1 h
  rw [Block.AccessSound, Block.held, hr, hw, hq, hd]
  exact hb

theorem Block.AccessSound.exclusive {b : Block} (hb : b.AccessSound) : b.Exclusive := ⟨hb.1, hb.2.1⟩

/-- Nobody holds the block or waits for it. -/
theorem Block.accessSound_of_free {b : Block} (hr : b.readers = []) (hw : b.writer = none) (hq : b.waiters = []) :
    b.AccessSound :=
  ⟨fun _ => hr, fun _ => by rw [Block.held, hr, hw]; rfl, fun _ w hw => by simp [hq] at hw⟩

/-- Fewer entries leave no writer beside a reader. -/
theorem Block.Exclusive.without {b : Block} (hb : b.Exclusive) (hit : GangId → Bool) : (b.without hit).Exclusive := by
  obtain ⟨hwriter, hmoving⟩ := hb
  refine ⟨fun hw => ?_, fun hd => ?_⟩
  · have hsome : b.writer.isSome = true := by
      obtain ⟨g, hg⟩ := Option.isSome_iff_exists.1 hw
      exact Option.isSome_iff_exists.2 ⟨g, (Option.mem_filter_iff.1 hg).1⟩
    simp [Block.without, hwriter hsome]
  · have hfree : b.readers = [] ∧ b.writer = none := by
      by_contra hne
      exact Bool.false_ne_true ((hmoving hd).symm.trans (b.held_iff.2 hne))
    simp [Block.held, Block.without, hfree.1, hfree.2]

/-- A record without an entry of the gangs loses nothing. -/
theorem Block.without_of_mentions {b : Block} {hit : GangId → Bool} (h : b.mentions hit = false) : b.without hit = b := by
  obtain ⟨hreaders, hwriter, hwaiters⟩ := (Block.mentions_eq_false_iff _ _).1 h
  have hr : (b.readers.filter fun g => !hit g) = b.readers :=
    List.filter_eq_self.2 fun g hg => by rw [hreaders g hg]; rfl
  have hw : (b.writer.filter fun g => !hit g) = b.writer := by
    cases hb : b.writer with
    | none => rfl
    | some g => simp [hwriter g hb]
  have hq : (b.waiters.filter fun w => !hit w.gang) = b.waiters :=
    List.filter_eq_self.2 fun w hw => by rw [hwaiters w hw]; rfl
  rw [Block.without, hr, hw, hq]

/-- The records keep the conditions of R26, but for the oldest waiters of the blocks of `l`, which are to be evaluated. -/
def State.SoundBut (s : State) (l : List SlotId) : Prop :=
  ∀ i, ∀ b ∈ s.block i, b.Exclusive ∧ (i ∉ l → b.AccessSound)

theorem State.AccessSound.soundBut (hs : s.AccessSound) (l : List SlotId) : s.SoundBut l :=
  fun i b hb => ⟨(hs i b hb).exclusive, fun _ => hs i b hb⟩

theorem State.SoundBut.sound (hs : s.SoundBut []) : s.AccessSound := fun i b hb => (hs i b hb).2 List.not_mem_nil

theorem State.AccessSound.congr (hs : s.AccessSound) (h : SameRecords s t) : t.AccessSound := by
  intro i c hc
  obtain ⟨b, hb, hbc⟩ := h.back hc
  exact (hs i b hb).congr hbc

/-- One record changes and keeps holders apart. -/
theorem State.AccessSound.modBlock (hs : s.AccessSound) (i : SlotId) {f : Block → Block}
    (hf : ∀ b ∈ s.block i, b.AccessSound → (f b).Exclusive) : (s.modBlock i f).SoundBut [i] := by
  intro j c hc
  by_cases hj : j = i
  · subst hj
    rw [State.modBlock_block_self] at hc
    obtain ⟨b, hb, rfl⟩ := Option.map_eq_some_iff.1 hc
    exact ⟨hf b hb (hs j b hb), fun hne => absurd List.mem_cons_self hne⟩
  · rw [State.modBlock_block_ne _ _ hj] at hc
    exact hs.soundBut [i] j c hc

/-- One record changes and keeps the conditions of R26. -/
theorem State.AccessSound.modBlock_sound (hs : s.AccessSound) (i : SlotId) {f : Block → Block}
    (hf : ∀ b ∈ s.block i, b.AccessSound → (f b).AccessSound) : (s.modBlock i f).AccessSound := by
  intro j c hc
  by_cases hj : j = i
  · subst hj
    rw [State.modBlock_block_self] at hc
    obtain ⟨b, hb, rfl⟩ := Option.map_eq_some_iff.1 hc
    exact hf b hb (hs j b hb)
  · rw [State.modBlock_block_ne _ _ hj] at hc
    exact hs j c hc

theorem State.evaluate_exclusive {i : SlotId} (hs : ∀ b ∈ s.block i, b.Exclusive) :
    ∀ b ∈ (s.evaluate i).block i, b.Exclusive := by
  have h := s.evaluate_cases i
  generalize s.evaluate i = t at h ⊢
  cases h with
  | same => exact hs
  | @granted b hb hready readers writer run left hsplit hrecord =>
    intro c hc
    rw [State.handGrants_block, State.setBlock_block_self] at hc
    obtain rfl := Option.some.inj hc
    refine ⟨fun hw => ?_, fun hd => by simp [hready] at hd⟩
    rcases hrecord with ⟨w, -, -, -, -, rfl, -⟩ | ⟨-, -, rfl, -⟩
    · rfl
    · cases hw

/-- A grant evaluation leaves the oldest waiter of its block waiting for an incompatible holder (R29). -/
theorem State.SoundBut.evaluate {i : SlotId} {l : List SlotId} (hs : s.SoundBut (i :: l)) : (s.evaluate i).SoundBut l := by
  intro j c hc
  by_cases hj : j = i
  · subst hj
    have hexclusive := State.evaluate_exclusive (fun b hb => (hs j b hb).1) c hc
    exact ⟨hexclusive, fun _ => ⟨hexclusive.1, hexclusive.2, s.evaluate_head j c hc⟩⟩
  · rw [s.evaluate_block_ne hj] at hc
    obtain ⟨hexclusive, hsound⟩ := hs j c hc
    exact ⟨hexclusive, fun hl => hsound (by simp [hj, hl])⟩

theorem State.SoundBut.evaluates {l : List SlotId} (hs : s.SoundBut l) : (l.foldl State.evaluate s).AccessSound := by
  induction l generalizing s with
  | nil => exact hs.sound
  | cons i is ih => exact ih hs.evaluate

/-! ## The steps -/

theorem State.AccessSound.release (hs : s.AccessSound) (i : SlotId) (g : GangId) : (s.release i g).AccessSound :=
  ((hs.modBlock i (f := fun b => b.without (· == g)) fun _ _ hb => hb.exclusive.without _).evaluate (l := [])).sound

/-- The record of block `b` behind the claim of the active job `J` of gang `g` (R27, R28). -/
def Block.claimed (b : Block) (g : GangId) (J : Job) : Block :=
  if b.grants (J.dir == .capture) then
    if J.dir == .capture then { b with writer := some g } else { b with readers := addReader g b.readers }
  else { b with waiters := b.waiters ++ [⟨J.id, g, J.dir == .capture⟩] }

theorem State.claim_eq {G : Gang} {J : Job} {later : List Job} {B : Beat} (h : s.Active g G J later B) {b : Block}
    (hb : s.block J.slot = some b) :
    s.claim g =
      if b.grants (J.dir == .capture) then (s.setBlock J.slot (some (b.claimed g J))).handGrant g
      else (s.setBlock J.slot (some (b.claimed g J))).setJobState g .waiting := by
  rw [State.claim, State.withActive_eq h, hb]
  dsimp only
  rw [State.modBlock_eq hb, State.modBlock_eq hb, Block.claimed]
  by_cases hgrants : b.grants (J.dir == .capture) = true
  · rw [if_pos hgrants, if_pos hgrants, if_pos hgrants]
  · rw [if_neg hgrants, if_neg hgrants, if_neg hgrants]

/-- The records behind a claim: that of the job's block alone differs. -/
theorem State.claim_block {G : Gang} {J : Job} {later : List Job} {B : Beat} (h : s.Active g G J later B) {b : Block}
    (hb : s.block J.slot = some b) (i : SlotId) :
    (s.claim g).block i = (s.setBlock J.slot (some (b.claimed g J))).block i := by
  rw [State.claim_eq h hb]
  split_ifs
  · rw [State.block, (State.onlyGangs_handGrant _ g).dir, State.block]
  · rfl

/-- A claim that is granted is compatible with the holders, and one that is not waits (R27, R28). -/
theorem Block.AccessSound.claimed {b : Block} (hb : b.AccessSound) (g : GangId) (J : Job) : (b.claimed g J).AccessSound := by
  obtain ⟨hwriter, hmoving, hhead⟩ := hb
  unfold Block.claimed
  by_cases hgrants : b.grants (J.dir == .capture) = true
  · obtain ⟨hfree, hready, hnone, hcompatible⟩ := (b.grants_iff J.dir).1 hgrants
    rw [if_pos hgrants]
    cases hdir : J.dir with
    | send =>
      exact ⟨fun hw => absurd hw (by simp [hnone]), fun hd => absurd hd (by simp [hready]), fun _ w hw => by simp [hfree] at hw⟩
    | capture =>
      have hreaders : b.readers = [] := hcompatible.resolve_left (by simp [hdir])
      exact ⟨fun _ => hreaders, fun hd => absurd hd (by simp [hready]), fun _ w hw => by simp [hfree] at hw⟩
  · rw [if_neg hgrants]
    refine ⟨hwriter, hmoving, fun hready w hw => ?_⟩
    cases hwaiters : b.waiters with
    | cons v vs =>
      refine hhead hready w ?_
      rw [hwaiters] at hw ⊢
      exact hw
    | nil =>
      rw [hwaiters] at hw
      obtain rfl := Option.some.inj hw
      have hdenied := mt (b.grants_iff J.dir).2 hgrants
      cases hwr : b.writer with
      | some k => exact .inl rfl
      | none =>
        have hheld : ¬(J.dir = .send ∨ b.readers = []) := fun h => hdenied ⟨hwaiters, hready, hwr, h⟩
        obtain ⟨hsend, hreaders⟩ := not_or.1 hheld
        refine .inr ⟨?_, hreaders⟩
        cases hdir : J.dir with
        | send => exact absurd hdir hsend
        | capture => rfl

theorem State.AccessSound.setBlock (hs : s.AccessSound) (i : SlotId) {b : Block} (hb : b.AccessSound) :
    (s.setBlock i (some b)).AccessSound := by
  intro j c hc
  by_cases hj : j = i
  · subst hj
    rw [State.setBlock_block_self] at hc
    obtain rfl := Option.some.inj hc
    exact hb
  · rw [State.setBlock_block_ne _ _ hj] at hc
    exact hs j c hc

theorem State.AccessSound.claim (hs : s.AccessSound) (g : GangId) : (s.claim g).AccessSound := by
  by_cases h : ∃ (G : Gang) (J : Job) (later : List Job) (B : Beat), s.Active g G J later B
  · obtain ⟨G, J, later, B, hactive⟩ := h
    cases hb : s.block J.slot with
    | none =>
      rw [State.claim, State.withActive_eq hactive, hb]
      exact hs
    | some b =>
      exact (hs.setBlock J.slot ((hs J.slot b hb).claimed g J)).congr (.of_blocks (State.claim_block hactive hb))
  · simp only [not_exists] at h
    rw [State.claim, State.withActive_none h]
    exact hs

theorem State.AccessSound.activate (hs : s.AccessSound) (g : GangId) : (s.activate g).AccessSound := by
  cases hG : s.gang g with
  | none =>
    rw [State.activate, hG]
    exact hs
  | some G =>
    rw [State.activate_eq hG]
    exact State.AccessSound.claim (s := (s.setDrivers G false).setGang g _) hs g

theorem State.AccessSound.departHead (hs : s.AccessSound) (g : GangId) (o : LastOutcome) (notice : Option NoticeBody) :
    (s.departHead g o notice).AccessSound := by
  cases hG : s.gang g with
  | none =>
    rw [State.departHead, hG]
    exact hs
  | some G =>
    cases hq : G.queue with
    | nil =>
      rw [State.departHead, hG]
      dsimp only
      rw [hq]
      exact hs
    | cons J later =>
      have hreleased : (s.released g J (keepOf o later)).AccessSound :=
        State.AccessSound.release (s := s.modGang g fun G => { G with queue := keepOf o later, beat := none }) hs J.slot g
      have hdeparting := hreleased.congr (.departing hG J later o notice)
      by_cases hkeep : keepOf o later = []
      · obtain ⟨K, -, -, hdone⟩ := State.departHead_last hG hq hkeep notice
        rw [hdone]
        exact hdeparting.congr (.rested _ g K _)
      · obtain ⟨K, -, -, hdone⟩ := State.departHead_more hG hq hkeep notice
        rw [hdone]
        exact State.AccessSound.activate (s := (s.departing g J later o notice).setGang g _) hdeparting g

theorem WorkStep.accessSound (h : WorkStep s t) (hs : s.AccessSound) : t.AccessSound := by
  cases h with
  | quiet h => exact hs.congr (.of_dir h.dir)
  | departed g o notice => exact hs.departHead g o notice
  | @submitted g G J b hG hroom hid hstate hb =>
    have hqueued := hs.congr (.queued s g J)
    rw [State.accept_cases]
    split_ifs
    · exact hqueued.activate g
    · exact hqueued
  | left hG hqueue hbefore => exact hs.congr (.departQueued hG _ _ _)
  | @halting g G J behind hG hqueue => exact hs.congr (.haltBehind s g behind)
  | completed | formed | dissolved | turned | paused | resumed => exact hs

theorem SameRecords.endPack (s : State) (stopped : Bool) : SameRecords s (s.endPack stopped) :=
  .of_blocks (s.endPack_block stopped)

/-- A block without a holder moves (R42). -/
theorem State.AccessSound.startMove (hs : s.AccessSound) {i : SlotId} {b : Block} (hb : s.block i = some b)
    (hfree : ¬b.held = true) (e : Extent) : (s.startMove i b e).AccessSound := by
  refine State.AccessSound.modBlock_sound (f := fun b => { b with dest := some e.base }) hs i fun c hc hsound => ?_
  obtain rfl := Option.some.inj (hb.symm.trans hc)
  exact ⟨hsound.1, fun _ => Bool.eq_false_iff.2 hfree, fun hready => absurd hready (by simp)⟩

theorem StoreEffect.accessSound (h : StoreEffect s t) (hs : s.AccessSound) : t.AccessSound := by
  cases h with
  | @created j name size base free fill hslot hsize hidle hfit =>
    intro i c hc
    by_cases hij : i = j
    · subst hij
      rw [State.create_block_self] at hc
      obtain rfl := Option.some.inj hc
      exact Block.accessSound_of_free rfl rfl rfl
    · rw [State.create_block_ne _ _ _ _ _ _ hij] at hc
      exact hs i c hc
  | @destroyed j b hb hready hrefs =>
    intro i c hc
    by_cases hij : i = j
    · subst hij
      rw [State.destroy_block_self] at hc
      cases hc
    · rw [State.destroy_block_ne _ _ hij] at hc
      exact hs i c hc
  | written | filled | packStarted | packStopping => exact hs
  | packEnded stopped => exact hs.congr (.endPack s stopped)
  | @visited j b hrun hmove hb =>
    unfold State.visitBlock
    split
    · exact hs
    · split_ifs with hheld
      · exact hs
      · exact hs.startMove (State.block_of_visitChoice hb).1 hheld _
  | @moved m hm =>
    have hmoved : ((s.finishMove m).evaluate m.slot).AccessSound :=
      ((State.AccessSound.modBlock (f := fun b => { b with base := m.dst, dest := none }) hs m.slot
        fun b _ hsound => ⟨hsound.1, fun hd => by cases hd⟩).evaluate (s := s.finishMove m) (l := [])).sound
    split_ifs
    · exact hmoved.congr (.endPack _ true)
    · exact hmoved

theorem State.not_mem_touchedBy {x : LinkId} {i : SlotId} (h : i ∉ s.touchedBy x) :
    ∀ b ∈ s.block i, b.mentions (s.ownedBy x) = false := by
  intro b hb
  by_contra hne
  refine h (List.mem_map.2 ⟨(i, b), List.mem_filter.2 ⟨State.mem_blocks.2 hb, ?_⟩, rfl⟩)
  simpa using hne

/-- The teardown takes entries out of the blocks that it evaluates alone (R134). -/
theorem State.AccessSound.tornDown (hs : s.AccessSound) (x : LinkId) : (s.tornDown x).SoundBut (s.touchedBy x) := by
  intro i c hc
  rw [State.tornDown_block] at hc
  obtain ⟨b, hb, rfl⟩ := Option.map_eq_some_iff.1 hc
  refine ⟨((hs i b hb).exclusive.without (s.ownedBy x)).congr rfl, fun hi => (hs i b hb).congr ?_⟩
  have hsame := Block.without_of_mentions (State.not_mem_touchedBy hi b hb)
  exact (congrArg Block.record hsame :)

end

theorem keptBehindLinks_accessSound : KeptBehindLinks State.AccessSound where
  wires h hs := hs.congr (.of_wires h)
  store _ h hs := h.accessSound hs
  gang _ h hs := h.work.keeps (fun _ _ => WorkStep.accessSound) hs
  teardown s x hs := (hs.tornDown x).evaluates
  cleared s _ := by
    intro i c hc
    rw [State.cleared_block] at hc
    obtain ⟨b, -, rfl⟩ := Option.map_eq_some_iff.1 hc
    exact Block.accessSound_of_free rfl rfl rfl
  restarted s rsel _ _ _ _ _ _ _ := by
    intro i c hc
    simp [State.block, State.fullRestart] at hc
  startupEnded _ _ hs := hs
  sensed _ _ _ _ hs := hs
  holdRecorded _ _ _ _ hs := hs

end Sys2Proof.Machine
end

section
/-! PROOFS. The entries of the access records and the gangs they stand for (R26, R115). An entry is a holder or a waiter; a
gang is entitled to it by its active job. Every step keeps every gang entitled to its entries. -/

namespace Sys2Proof.Machine

/-! ## Entries and what entitles to them -/

/-- An entry of a gang in an access record (R25). -/
inductive AccessEntry
  | reader
  | writer
  | waiter (job : Nat) (write : Bool)

/-- The direction of the job behind an entry. -/
def AccessEntry.dir : AccessEntry → Direction
  | reader => .send
  | writer => .capture
  | waiter _ write => if write then .capture else .send

/-- The state of the job behind an entry, in a gang with this run state (R115). -/
def AccessEntry.state (run : RunState) : AccessEntry → JobState
  | reader | writer => if run = .paused then .paused else .running
  | waiter _ _ => .waiting

/-- The id that an entry keeps of its job. -/
def AccessEntry.job : AccessEntry → Option Nat
  | reader | writer => none
  | waiter job _ => some job

/-- The gang has the entry in the block's access record. -/
def Block.Enters (b : Block) (g : GangId) : AccessEntry → Prop
  | .reader => g ∈ b.readers
  | .writer => g ∈ b.writer
  | .waiter job write => ⟨job, g, write⟩ ∈ b.waiters

/-- The active job is the one behind an entry in the record of slot `i`. -/
def Gang.Entitled (G : Gang) (i : SlotId) (e : AccessEntry) : Prop :=
  ∃ J ∈ G.queue.head?, J.slot = i ∧ J.dir = e.dir ∧ J.state = e.state G.run ∧ ∀ id ∈ e.job, J.id = id

/-- A beat is in flight only while the active job is RUNNING (R79, R115). -/
def Gang.FlightRuns (G : Gang) : Prop := ∀ J ∈ G.queue.head?, ∀ B ∈ G.beat, B.inFlight = true → J.state = .running

/-- Readers stand in ascending order, and no gang waits twice. -/
def Block.Tidy (b : Block) : Prop := b.readers.Pairwise (· < ·) ∧ (b.waiters.map Waiter.gang).Nodup

def State.Tidy (s : State) : Prop := ∀ i, ∀ b ∈ s.block i, b.Tidy

/-- Gang `g` is entitled to all its entries, and its beats are in flight in RUNNING jobs alone. -/
structure State.Fits (s : State) (g : GangId) : Prop where
  entitled : ∀ i, ∀ b ∈ s.block i, ∀ e, b.Enters g e → ∃ G ∈ s.gang g, G.Entitled i e
  flight : ∀ G ∈ s.gang g, G.FlightRuns

/-- Every record is tidy, and every gang is entitled to its entries. -/
structure State.Fit (s : State) : Prop where
  tidy : s.Tidy
  fits : ∀ g, s.Fits g

/-- Gang `g` has no entry. -/
def State.Absent (s : State) (g : GangId) : Prop := ∀ i, ∀ b ∈ s.block i, ∀ e, ¬b.Enters g e

theorem State.activeJob_iff (s : State) (g : GangId) (p : Gang → Job → Bool) :
    s.activeJob g p = true ↔ ∃ G ∈ s.gang g, ∃ J ∈ G.queue.head?, p G J = true := by
  simp only [State.activeJob, Option.any_eq_true, Option.mem_def]

theorem State.holds_iff (s : State) (g : GangId) (i : SlotId) (e : AccessEntry) (he : e = .reader ∨ e = .writer) :
    s.holds g i e.dir = true ↔ ∃ G ∈ s.gang g, G.Entitled i e := by
  rw [State.holds, State.activeJob_iff]
  refine exists_congr fun G => and_congr_right fun _ => exists_congr fun J => and_congr_right fun _ => ?_
  rcases he with rfl | rfl <;> simp [AccessEntry.state, AccessEntry.job, and_assoc]

theorem State.waits_iff (s : State) (w : Waiter) (i : SlotId) :
    s.waits w i = true ↔ ∃ G ∈ s.gang w.gang, G.Entitled i (.waiter w.job w.write) := by
  rw [State.waits, State.activeJob_iff]
  refine exists_congr fun G => and_congr_right fun _ => exists_congr fun J => and_congr_right fun _ => ?_
  simp only [AccessEntry.state, AccessEntry.job, AccessEntry.dir, Option.mem_def, Option.some.injEq, forall_eq',
    Bool.and_eq_true, beq_iff_eq]
  tauto

theorem State.EntriesActive.entitled {s : State} (hs : s.EntriesActive) {g : GangId} {i : SlotId} {b : Block}
    (hb : b ∈ s.block i) {e : AccessEntry} (he : b.Enters g e) : ∃ G ∈ s.gang g, G.Entitled i e := by
  obtain ⟨-, -, hreaders, hwriter, hwaiters⟩ := hs i b hb
  cases e with
  | reader => exact (s.holds_iff g i .reader (.inl rfl)).1 (hreaders g he)
  | writer => exact (s.holds_iff g i .writer (.inr rfl)).1 (hwriter g he)
  | waiter job write => exact (s.waits_iff ⟨job, g, write⟩ i).1 (hwaiters _ he)

/-- The two statements of the architect are this one. -/
theorem State.fit_iff (s : State) : s.Fit ↔ s.EntriesActive ∧ s.FlightsRunning := by
  constructor
  · rintro ⟨htidy, hfits⟩
    refine ⟨fun i b hb => ⟨(htidy i b hb).1, (htidy i b hb).2, fun g hg => ?_, fun g hg => ?_, fun w hw => ?_⟩,
      fun g G hG => (hfits g).flight G hG⟩
    · exact (s.holds_iff g i .reader (.inl rfl)).2 ((hfits g).entitled i b hb .reader hg)
    · exact (s.holds_iff g i .writer (.inr rfl)).2 ((hfits g).entitled i b hb .writer hg)
    · exact (s.waits_iff w i).2 ((hfits w.gang).entitled i b hb (.waiter w.job w.write) hw)
  · rintro ⟨hentries, hflights⟩
    refine ⟨fun i b hb => ?_, fun g => ⟨fun i b hb e he => ?_, fun G hG => hflights g G hG⟩⟩
    · obtain ⟨hsorted, hnodup, -⟩ := hentries i b hb
      exact ⟨hsorted, hnodup⟩
    · exact hentries.entitled hb he

theorem Block.enters_congr {b c : Block} (h : c.record = b.record) {g : GangId} {e : AccessEntry} :
    c.Enters g e ↔ b.Enters g e := by
  obtain ⟨hr, hw, hq, -⟩ := Block.record_eq_iff.1 h
  cases e <;> simp [Block.Enters, hr, hw, hq]

theorem Block.Tidy.congr {b c : Block} (h : c.record = b.record) (hb : b.Tidy) : c.Tidy := by
  obtain ⟨hr, -, hq, -⟩ := Block.record_eq_iff.1 h
  rw [Block.Tidy, hr, hq]
  exact hb

theorem Block.mentions_iff (b : Block) (hit : GangId → Bool) :
    b.mentions hit = true ↔ ∃ g e, hit g = true ∧ b.Enters g e := by
  constructor
  · intro h
    by_contra hne
    refine Bool.false_ne_true (((Block.mentions_eq_false_iff b hit).2 ⟨fun g hg => ?_, fun g hg => ?_, fun w hw => ?_⟩).symm.trans h)
    · exact Bool.eq_false_iff.2 fun hhit => hne ⟨g, .reader, hhit, hg⟩
    · exact Bool.eq_false_iff.2 fun hhit => hne ⟨g, .writer, hhit, hg⟩
    · exact Bool.eq_false_iff.2 fun hhit => hne ⟨w.gang, .waiter w.job w.write, hhit, hw⟩
  · rintro ⟨g, e, hhit, he⟩
    by_contra hne
    obtain ⟨hreaders, hwriter, hwaiters⟩ := (Block.mentions_eq_false_iff b hit).1 (Bool.eq_false_iff.2 hne)
    have hfree : hit g = false := by
      cases e with
      | reader => exact hreaders g he
      | writer => exact hwriter g he
      | waiter job write => exact hwaiters _ he
    exact Bool.false_ne_true (hfree.symm.trans hhit)

/-- A gang is entitled to entries of one slot alone (R26). -/
theorem Gang.Entitled.slot_unique {s : State} {g : GangId} {i j : SlotId} {e f : AccessEntry}
    (h : ∃ G ∈ s.gang g, G.Entitled i e) (k : ∃ G ∈ s.gang g, G.Entitled j f) : i = j := by
  obtain ⟨G, hG, J, hJ, rfl, -⟩ := h
  obtain ⟨G', hG', K, hK, rfl, -⟩ := k
  obtain rfl := Option.some.inj (Option.mem_def.1 hG |>.symm.trans hG')
  rw [Option.some.inj (Option.mem_def.1 hJ |>.symm.trans hK)]

/-! ## Steps that add no entry -/

/-- Gang `k` has no entry that it did not have. -/
def NoMore (k : GangId) (s t : State) : Prop := ∀ i, ∀ c ∈ t.block i, ∀ e, c.Enters k e → ∃ b ∈ s.block i, b.Enters k e

/-- The gang's record `H` entitles to all that `G` entitles to, and its beats are in flight in a RUNNING job alone. -/
structure Gang.Follows (G H : Gang) : Prop where
  entitled : ∀ i e, G.Entitled i e → H.Entitled i e
  flight : H.FlightRuns

section
variable {s t : State} {g k : GangId}

theorem NoMore.of_same (h : SameRecords s t) (k : GangId) : NoMore k s t := by
  intro i c hc e he
  obtain ⟨b, hb, hbc⟩ := h.back hc
  exact ⟨b, hb, (Block.enters_congr hbc).1 he⟩

theorem State.Absent.noMore (hs : s.Absent k) (h : NoMore k s t) : t.Absent k := by
  intro i c hc e he
  obtain ⟨b, hb, hbe⟩ := h i c hc e he
  exact hs i b hb e hbe

theorem State.Absent.fits (hs : s.Absent k) (hflight : ∀ G ∈ s.gang k, G.FlightRuns) : s.Fits k :=
  ⟨fun i b hb e he => (hs i b hb e he).elim, hflight⟩

/-- A gang without an active job has no entry. -/
theorem State.Fits.absent (hs : s.Fits k) (hidle : ∀ G ∈ s.gang k, G.queue = []) : s.Absent k := by
  intro i b hb e he
  obtain ⟨G, hG, J, hJ, -⟩ := hs.entitled i b hb e he
  simp [hidle G hG] at hJ

theorem State.Fits.follows (hs : s.Fits k) (h : NoMore k s t)
    (hformed : ∀ G ∈ s.gang k, G.FlightRuns → ∃ H ∈ t.gang k, G.Follows H) (hfree : s.gang k = none → t.gang k = none) :
    t.Fits k := by
  refine ⟨fun i c hc e he => ?_, fun H hH => ?_⟩
  · obtain ⟨b, hb, hbe⟩ := h i c hc e he
    obtain ⟨G, hG, hent⟩ := hs.entitled i b hb e hbe
    obtain ⟨H, hH, hGH⟩ := hformed G hG (hs.flight G hG)
    exact ⟨H, hH, hGH.entitled i e hent⟩
  · cases hG : s.gang k with
    | none => cases (hfree hG).symm.trans hH
    | some G =>
      obtain ⟨H', hH', hGH⟩ := hformed G hG (hs.flight G hG)
      obtain rfl := Option.some.inj (Option.mem_def.1 hH |>.symm.trans hH')
      exact hGH.flight

/-- The gang's record stays, or its active job does and no beat begins. -/
theorem State.Fits.same (hs : s.Fits k) (h : NoMore k s t) (hgang : t.gang k = s.gang k) : t.Fits k :=
  hs.follows h (fun G hG hflight => ⟨G, hgang.trans hG, fun _ _ => id, hflight⟩) fun hnone => hgang.trans hnone

theorem State.Tidy.congr (hs : s.Tidy) (h : SameRecords s t) : t.Tidy := by
  intro i c hc
  obtain ⟨b, hb, hbc⟩ := h.back hc
  exact (hs i b hb).congr hbc

theorem State.Fit.congr (hs : s.Fit) (h : SameRecords s t) (hgangs : ∀ k, t.gang k = s.gang k) : t.Fit :=
  ⟨hs.tidy.congr h, fun k => (hs.fits k).same (.of_same h k) (hgangs k)⟩

/-- One gang's record changes while the access records stay. -/
theorem State.Fit.follow {G H : Gang} (hs : s.Fit) (h : SameRecords s t) (hG : s.gang g = some G)
    (hH : t.gang g = some H) (hothers : ∀ k, k ≠ g → t.gang k = s.gang k) (hfollows : G.FlightRuns → G.Follows H) : t.Fit := by
  refine ⟨hs.tidy.congr h, fun k => ?_⟩
  by_cases hk : k = g
  · subst hk
    refine (hs.fits k).follows (.of_same h k) (fun G' hG' hflight => ⟨H, hH, ?_⟩) fun hnone => ?_
    · obtain rfl := Option.some.inj (hG.symm.trans hG')
      exact hfollows hflight
    · cases hG.symm.trans hnone
  · exact (hs.fits k).same (.of_same h k) (hothers k hk)

theorem State.Fit.setGang {G H : Gang} (hs : s.Fit) (hG : s.gang g = some G) (hfollows : G.FlightRuns → G.Follows H) :
    (s.setGang g (some H)).Fit :=
  hs.follow (.of_dir rfl) hG (State.setGang_gang_self ..) (fun _ hk => State.setGang_gang_ne _ _ hk) hfollows

/-- The active job as before, in a gang whose run state and beat state are as before. -/
theorem Gang.Follows.of_head {G H : Gang} (hhead : H.queue.head? = G.queue.head?) (hrun : H.run = G.run)
    (hbeat : H.beat = G.beat) (hflight : G.FlightRuns) : G.Follows H := by
  refine ⟨fun i e he => ?_, ?_⟩
  · rw [Gang.Entitled, hhead, hrun]
    exact he
  · rw [Gang.FlightRuns, hhead, hbeat]
    exact hflight

theorem Gang.Core.follows {G H : Gang} (h : G.Core H) (hflight : G.FlightRuns) : G.Follows H := by
  refine ⟨fun i e he => ?_, fun J hJ C hC hfl => ?_⟩
  · rw [Gang.Entitled, h.queue, h.run]
    exact he
  · rw [h.queue] at hJ
    cases hB : G.beat with
    | none => cases (h.idle hB).symm.trans hC
    | some B =>
      obtain ⟨C', hC', hBC⟩ := h.flight B hB
      obtain rfl := Option.some.inj (Option.mem_def.1 hC |>.symm.trans hC')
      exact (hBC J hJ hfl).elim (hflight J hJ B hB) id

end

end Sys2Proof.Machine
end

section
/-! PROOFS. Grants, claims and departures keep every gang entitled to its entries (R27-R32, R122, R123). -/

namespace Sys2Proof.Machine

/-! ## A grant at its engine -/

/-- The gang's record behind a grant: its active job holds the block (R28, R115). -/
structure Gang.Granted (G H : Gang) (J : Job) (later : List Job) : Prop where
  run : H.run = G.run
  queue : H.queue = { J with state := AccessEntry.state G.run .reader } :: later
  flight : H.FlightRuns

section
variable {s : State} {g k : GangId} {G : Gang} {J : Job} {later : List Job}

theorem State.handGrant_granted (hG : s.gang g = some G) (hq : G.queue = J :: later)
    (hrest : ∀ B ∈ G.beat, B.inFlight = false) : ∃ H ∈ (s.handGrant g).gang g, G.Granted H J later := by
  rw [State.handGrant_eq hG hq]
  split_ifs with hrun
  · refine ⟨_, State.setGang_gang_self .., rfl, by rw [AccessEntry.state, if_pos hrun], fun _ _ B hB hfl => ?_⟩
    exact absurd hfl (by simp [hrest B hB])
  · obtain ⟨_, hH, ctl, beat, rfl, -⟩ := (BeatStep.tryBegin (s.setGang g (some
      { G with queue := { J with state := .running } :: later })) g).record _ (State.setGang_gang_self ..)
    refine ⟨_, hH, rfl, by rw [AccessEntry.state, if_neg hrun], fun K hK _ _ _ => ?_⟩
    obtain rfl := Option.some.inj hK
    rfl

/-- Grants that are handed out together reach each gang once. -/
theorem State.handGrants_granted {l : List Waiter} (hl : (l.map Waiter.gang).Nodup) {w : Waiter} (hw : w ∈ l)
    (hG : s.gang w.gang = some G) (hq : G.queue = J :: later) (hrest : ∀ B ∈ G.beat, B.inFlight = false) :
    ∃ H ∈ (l.foldl (fun s v => s.handGrant v.gang) s).gang w.gang, G.Granted H J later := by
  induction l generalizing s with
  | nil => simp at hw
  | cons v vs ih =>
    obtain ⟨hv, hvs⟩ := List.nodup_cons.1 (List.map_cons ▸ hl)
    rw [List.foldl_cons]
    rcases List.mem_cons.1 hw with rfl | hw
    · rw [State.handGrants_gang fun u hu heq => hv (List.mem_map.2 ⟨u, hu, heq⟩)]
      exact State.handGrant_granted hG hq hrest
    · refine ih hvs hw ?_
      rwa [State.handGrant_gang_ne s fun heq => hv (List.mem_map.2 ⟨w, hw, heq⟩)]

/-- A gang that waits has its active job WAITING, and no beat of it is in flight. -/
theorem State.Fits.waiting (hs : s.Fits k) {i : SlotId} {b : Block} (hb : b ∈ s.block i) {job : Nat} {write : Bool}
    (hwaits : b.Enters k (.waiter job write)) :
    ∃ (G : Gang) (J : Job) (later : List Job), s.gang k = some G ∧ G.queue = J :: later ∧ J.slot = i ∧
      J.dir = (if write then .capture else .send) ∧ J.state = .waiting ∧ ∀ B ∈ G.beat, B.inFlight = false := by
  obtain ⟨G, hG, J, hJ, hslot, hdir, hstate, -⟩ := hs.entitled i b hb _ hwaits
  obtain ⟨later, hq⟩ := List.head?_eq_some_iff.1 (Option.mem_def.1 hJ)
  refine ⟨G, J, later, hG, hq, hslot, hdir, hstate, fun B hB => Bool.eq_false_iff.2 fun hfl => ?_⟩
  have hrunning := hs.flight G hG J hJ B hB hfl
  rw [hrunning] at hstate
  cases hstate

/-- The holder's entry that a grant writes is the one its active job is entitled to. -/
theorem Gang.Granted.entitled {H : Gang} (h : G.Granted H J later) {e : AccessEntry} (hdir : J.dir = e.dir)
    (hholder : e = .reader ∨ e = .writer) : H.Entitled J.slot e := by
  refine ⟨{ J with state := AccessEntry.state G.run .reader }, by rw [h.queue]; rfl, rfl, hdir, ?_, ?_⟩
  · rw [h.run]
    rcases hholder with rfl | rfl <;> rfl
  · rcases hholder with rfl | rfl <;> simp [AccessEntry.job]

/-! ## Grant evaluations -/

/-- The entries behind a grant evaluation: those from before but the granted waiters, which are holders now. -/
theorem enters_evaluated {b : Block} {readers : List GangId} {writer : Option GangId} {run left : List Waiter}
    (hsplit : b.waiters = run ++ left)
    (hrecord : (∃ w, run = [w] ∧ w.write = true ∧ b.readers = [] ∧ b.writer = none ∧ readers = [] ∧ writer = some w.gang) ∨
      ((∀ v ∈ run, v.write = false) ∧ b.writer = none ∧ writer = none ∧
        readers = run.foldl (fun r v => addReader v.gang r) b.readers))
    {e : AccessEntry} (he : Block.Enters { b with readers := readers, writer := writer, waiters := left } k e) :
    (b.Enters k e ∧ ∀ job write, e = .waiter job write → ⟨job, k, write⟩ ∈ left) ∨
      ∃ w ∈ run, w.gang = k ∧ e = if w.write then .writer else .reader := by
  cases e with
  | reader =>
    rcases hrecord with ⟨w, -, -, -, -, rfl, -⟩ | ⟨hrun, -, -, rfl⟩
    · simp [Block.Enters] at he
    · rcases (mem_foldl_addReader run b.readers k).1 he with he | ⟨w, hw, hk⟩
      · exact .inl ⟨he, fun _ _ h => by cases h⟩
      · exact .inr ⟨w, hw, hk, by rw [hrun w hw]; rfl⟩
  | writer =>
    rcases hrecord with ⟨w, rfl, hwrite, -, -, -, rfl⟩ | ⟨-, -, rfl, -⟩
    · exact .inr ⟨w, List.mem_cons_self, Option.some.inj he, by rw [hwrite]; rfl⟩
    · simp [Block.Enters] at he
  | waiter job write =>
    refine .inl ⟨?_, fun _ _ h => by cases h; exact he⟩
    show _ ∈ b.waiters
    rw [hsplit]
    exact List.mem_append_right _ he

theorem State.Tidy.evaluate (hs : s.Tidy) (i : SlotId) : (s.evaluate i).Tidy := by
  have h := s.evaluate_cases i
  generalize s.evaluate i = t at h ⊢
  cases h with
  | same => exact hs
  | @granted b hb hready readers writer run left hsplit hrecord =>
    intro j c hc
    rw [State.handGrants_block] at hc
    by_cases hj : j = i
    · subst hj
      rw [State.setBlock_block_self] at hc
      obtain rfl := Option.some.inj hc
      obtain ⟨hsorted, hnodup⟩ := hs j b hb
      refine ⟨?_, ?_⟩
      · rcases hrecord with ⟨w, -, -, -, -, rfl, -⟩ | ⟨-, -, -, rfl⟩
        · exact .nil
        · exact List.foldlRecOn run _ hsorted fun r hr v _ => addReader_sorted v.gang hr
      · rw [hsplit, List.map_append] at hnodup
        exact (List.nodup_append.1 hnodup).2.1
    · rw [State.setBlock_block_ne _ _ hj] at hc
      exact hs j c hc

theorem State.Fit.evaluate (hs : s.Fit) (i : SlotId) : (s.evaluate i).Fit := by
  refine ⟨hs.tidy.evaluate i, fun k => ?_⟩
  have h := s.evaluate_cases i
  generalize s.evaluate i = t at h ⊢
  cases h with
  | same => exact hs.fits k
  | @granted b hb hready readers writer run left hsplit hrecord =>
    set u := s.setBlock i (some { b with readers := readers, writer := writer, waiters := left }) with hu
    have hback : ∀ j, ∀ c ∈ u.block j, ∀ e, c.Enters k e →
        (∃ b' ∈ s.block j, b'.Enters k e ∧ (j = i → ∀ job write, e = .waiter job write → ⟨job, k, write⟩ ∈ left)) ∨
          j = i ∧ ∃ w ∈ run, w.gang = k ∧ e = if w.write then .writer else .reader := by
      intro j c hc e he
      by_cases hj : j = i
      · subst hj
        rw [hu, State.setBlock_block_self] at hc
        obtain rfl := Option.some.inj hc
        rcases enters_evaluated hsplit hrecord he with ⟨hbe, hleft⟩ | hw
        · exact .inl ⟨b, hb, hbe, fun _ => hleft⟩
        · exact .inr ⟨rfl, hw⟩
      · rw [hu, State.setBlock_block_ne _ _ hj] at hc
        exact .inl ⟨c, hc, he, fun h => absurd h hj⟩
    by_cases hk : ∃ w ∈ run, w.gang = k
    · obtain ⟨w, hw, rfl⟩ := hk
      have hwaits : b.Enters w.gang (.waiter w.job w.write) := by
        show w ∈ b.waiters
        rw [hsplit]
        exact List.mem_append_left _ hw
      obtain ⟨G, J, later, hG, hq, hslot, hdir, hstate, hrest⟩ := (hs.fits w.gang).waiting hb hwaits
      have hnodup := (hs.tidy i b hb).2
      rw [hsplit, List.map_append] at hnodup
      obtain ⟨hrunNodup, -, hapart⟩ := List.nodup_append.1 hnodup
      obtain ⟨H, hH, hgranted⟩ := State.handGrants_granted (s := u) hrunNodup hw hG hq hrest
      refine ⟨fun j c hc e he => ⟨H, hH, ?_⟩, fun H' hH' => ?_⟩
      · rw [State.handGrants_block] at hc
        rcases hback j c hc e he with ⟨b', hb', hbe, hleft⟩ | ⟨rfl, v, hv, hvw, rfl⟩
        · obtain rfl := Gang.Entitled.slot_unique ((hs.fits w.gang).entitled j b' hb' e hbe)
            ((hs.fits w.gang).entitled i b hb _ hwaits)
          obtain ⟨G', hG', K, hK, -, -, hKstate, -⟩ := (hs.fits w.gang).entitled j b' hb' e hbe
          obtain rfl := Option.some.inj (Option.mem_def.1 hG' |>.symm.trans hG)
          rw [hq] at hK
          obtain rfl := Option.some.inj hK
          rw [hstate] at hKstate
          cases e with
          | reader | writer =>
            simp only [AccessEntry.state] at hKstate
            split_ifs at hKstate
          | waiter job write =>
            have hin := hleft rfl job write rfl
            exact (hapart _ (List.mem_map.2 ⟨w, hw, rfl⟩) _ (List.mem_map.2 ⟨_, hin, rfl⟩) rfl).elim
        · have hvw' : v = w := List.inj_on_of_nodup_map hrunNodup hv hw hvw
          subst hvw'
          rw [← hslot]
          refine hgranted.entitled ?_ ?_
          · rw [hdir]
            cases v.write <;> rfl
          · cases v.write
            · exact .inl rfl
            · exact .inr rfl
      · obtain rfl := Option.some.inj (Option.mem_def.1 hH |>.symm.trans hH')
        exact hgranted.flight
    · refine (hs.fits k).same (fun j c hc e he => ?_)
        (State.handGrants_gang (fun w hw heq => hk ⟨w, hw, heq⟩) u)
      rw [State.handGrants_block] at hc
      rcases hback j c hc e he with ⟨b', hb', hbe, -⟩ | ⟨-, w, hw, hwk, -⟩
      · exact ⟨b', hb', hbe⟩
      · exact absurd ⟨w, hw, hwk⟩ hk

theorem State.Fit.evaluates (hs : s.Fit) (l : List SlotId) : (l.foldl State.evaluate s).Fit := by
  induction l generalizing s with
  | nil => exact hs
  | cons i is ih => exact ih (hs.evaluate i)

/-- A grant evaluation gives no entry to a gang without one. -/
theorem State.Absent.evaluate (hs : s.Absent g) (i : SlotId) : (s.evaluate i).Absent g := by
  intro j c hc e he
  obtain ⟨hnone, hsome⟩ := s.evaluate_block i j
  cases hb : s.block j with
  | none => cases (hnone hb).symm.trans hc
  | some b =>
    obtain ⟨c', hc', hbc⟩ := hsome b hb
    obtain rfl := Option.some.inj (Option.mem_def.1 hc' |>.symm.trans hc)
    have hfree : b.mentions (· == g) = false := by
      refine Bool.eq_false_iff.2 fun hmentions => ?_
      obtain ⟨k, f, hk, hf⟩ := (b.mentions_iff _).1 hmentions
      obtain rfl := beq_iff_eq.1 hk
      exact hs j b hb f hf
    exact Bool.false_ne_true ((hbc.mentions _ hfree).symm.trans ((c'.mentions_iff _).2 ⟨g, e, beq_self_eq_true g, he⟩))

/-! ## Fewer entries -/

theorem Block.enters_without {b : Block} {hit : GangId → Bool} {e : AccessEntry} (he : (b.without hit).Enters k e) :
    b.Enters k e ∧ hit k = false := by
  cases e with
  | reader =>
    obtain ⟨hb, hhit⟩ := List.mem_filter.1 he
    exact ⟨hb, by simpa using hhit⟩
  | writer =>
    obtain ⟨hb, hhit⟩ := Option.mem_filter_iff.1 he
    exact ⟨hb, by simpa using hhit⟩
  | waiter job write =>
    obtain ⟨hb, hhit⟩ := List.mem_filter.1 he
    exact ⟨hb, by simpa using hhit⟩

theorem Block.Tidy.without {b : Block} (hb : b.Tidy) (hit : GangId → Bool) : (b.without hit).Tidy :=
  ⟨hb.1.sublist List.filter_sublist, hb.2.sublist (List.filter_sublist.map _)⟩

/-- One record changes and stays tidy. -/
theorem State.Tidy.modBlock (hs : s.Tidy) (i : SlotId) {f : Block → Block} (hf : ∀ b ∈ s.block i, b.Tidy → (f b).Tidy) :
    (s.modBlock i f).Tidy := by
  intro j c hc
  by_cases hj : j = i
  · subst hj
    rw [State.modBlock_block_self] at hc
    obtain ⟨b, hb, rfl⟩ := Option.map_eq_some_iff.1 hc
    exact hf b hb (hs j b hb)
  · rw [State.modBlock_block_ne _ _ hj] at hc
    exact hs j c hc

/-- One record changes and has no entry of the gang that it did not have. -/
theorem NoMore.modBlock (s : State) (i : SlotId) {f : Block → Block}
    (hf : ∀ b ∈ s.block i, ∀ e, (f b).Enters k e → b.Enters k e) : NoMore k s (s.modBlock i f) := by
  intro j c hc e he
  by_cases hj : j = i
  · subst hj
    rw [State.modBlock_block_self] at hc
    obtain ⟨b, hb, rfl⟩ := Option.map_eq_some_iff.1 hc
    exact ⟨b, hb, hf b hb e he⟩
  · rw [State.modBlock_block_ne _ _ hj] at hc
    exact ⟨c, hc, he⟩

/-- The active job is out of the queue: its gang has no entry left, and every gang is entitled to what it has. -/
theorem State.Fit.released (hs : s.Fit) (hG : s.gang g = some G) (hq : G.queue = J :: later) (keep : List Job) :
    (s.released g J keep).Fit ∧ (s.released g J keep).Absent g := by
  set u := s.modGang g fun G => { G with queue := keep, beat := none } with hu
  set v := u.modBlock J.slot fun b => b.without (· == g) with hv
  have hgang : v.gang g = some { G with queue := keep, beat := none } := by
    show u.gang g = _
    rw [hu, State.modGang_gang_self, hG]
    rfl
  have hmore (k : GangId) : NoMore k s v :=
    NoMore.modBlock (f := fun b => b.without (· == g)) u J.slot fun b _ e he => (Block.enters_without he).1
  have habsent : v.Absent g := by
    intro i c hc e he
    obtain ⟨b, hb, hbe⟩ := hmore g i c hc e he
    obtain ⟨G', hG', K, hK, hslot, -⟩ := (hs.fits g).entitled i b hb e hbe
    obtain rfl := Option.some.inj (Option.mem_def.1 hG' |>.symm.trans hG)
    rw [hq] at hK
    obtain rfl := Option.some.inj hK
    subst hslot
    rw [hv, State.modBlock_block_self] at hc
    obtain ⟨b', -, rfl⟩ := Option.map_eq_some_iff.1 hc
    have := (Block.enters_without he).2
    simp at this
  have hfit : v.Fit := by
    refine ⟨State.Tidy.modBlock (s := u) (f := fun b => b.without (· == g)) hs.tidy J.slot fun b _ hb => hb.without _,
      fun k => ?_⟩
    by_cases hk : k = g
    · subst hk
      refine habsent.fits fun H hH K hK B hB => ?_
      obtain rfl := Option.some.inj (hgang.symm.trans hH)
      cases hB
    · exact (hs.fits k).same (hmore k) (State.modGang_gang_ne _ _ hk)
  exact ⟨hfit.evaluate J.slot, habsent.evaluate J.slot⟩

/-! ## Claims -/

/-- The entry that a claim writes. -/
def Block.claimEntry (b : Block) (J : Job) : AccessEntry :=
  if b.grants (J.dir == .capture) then if J.dir == .capture then .writer else .reader
  else .waiter J.id (J.dir == .capture)

theorem Block.enters_claimed {b : Block} {e : AccessEntry} (he : (b.claimed g J).Enters k e) :
    b.Enters k e ∨ k = g ∧ e = b.claimEntry J := by
  unfold Block.claimed at he
  unfold Block.claimEntry
  split_ifs at he ⊢ with hgrants hwrite
  · obtain ⟨-, -, hnone, -⟩ := (b.grants_iff J.dir).1 hgrants
    cases e with
    | reader => exact .inl he
    | writer => exact .inr ⟨(Option.some.inj he).symm, rfl⟩
    | waiter => exact .inl he
  · cases e with
    | reader => exact ((mem_addReader g b.readers k).1 he).elim (fun h => .inr ⟨h, rfl⟩) .inl
    | writer | waiter => exact .inl he
  · cases e with
    | reader | writer => exact .inl he
    | waiter job write =>
      rcases List.mem_append.1 he with he | he
      · exact .inl he
      · cases List.mem_singleton.1 he
        exact .inr ⟨rfl, rfl⟩

theorem Block.claimEntry_dir (b : Block) (J : Job) : (b.claimEntry J).dir = J.dir := by
  unfold Block.claimEntry
  cases hdir : J.dir <;> split_ifs <;> simp_all [AccessEntry.dir]

theorem Block.Tidy.claimed {b : Block} (hb : b.Tidy) (hfree : ∀ e, ¬b.Enters g e) (J : Job) : (b.claimed g J).Tidy := by
  obtain ⟨hsorted, hnodup⟩ := hb
  unfold Block.claimed
  split_ifs
  · exact ⟨hsorted, hnodup⟩
  · exact ⟨addReader_sorted g hsorted, hnodup⟩
  · refine ⟨hsorted, ?_⟩
    rw [List.map_append]
    refine List.nodup_append.2 ⟨hnodup, List.nodup_singleton _, fun k hk j hj => ?_⟩
    obtain ⟨w, hw, rfl⟩ := List.mem_map.1 hk
    obtain rfl := List.mem_singleton.1 hj
    rintro rfl
    exact hfree (.waiter w.job w.write) hw

section
variable {B : Beat} {b : Block}

theorem State.setJobState_gang_ne (s : State) (st : JobState) (hk : k ≠ g) : (s.setJobState g st).gang k = s.gang k :=
  State.modGang_gang_ne _ _ hk

theorem State.claim_gang_ne (s : State) (hk : k ≠ g) : (s.claim g).gang k = s.gang k := by
  refine withActive_cases (P := fun t => t.gang k = s.gang k) rfl fun G J later B _ => ?_
  split
  · rfl
  · dsimp only
    split_ifs
    · exact State.handGrant_gang_ne _ hk
    · exact State.handGrant_gang_ne _ hk
    · exact State.setJobState_gang_ne _ _ hk

/-- The active job of the gang that has claimed is the one behind the entry that the claim writes (R28). -/
theorem State.claim_entitled (hactive : s.Active g G J later B) (hb : s.block J.slot = some b)
    (hrest : B.inFlight = false) : ∃ H ∈ (s.claim g).gang g, H.Entitled J.slot (b.claimEntry J) ∧ H.FlightRuns := by
  obtain ⟨hG, hq, hbeat⟩ := id hactive
  have hrest' : ∀ B ∈ G.beat, B.inFlight = false := fun B' hB' => by
    obtain rfl := Option.some.inj (hbeat.symm.trans hB')
    exact hrest
  have hdir := (b.claimEntry_dir J).symm
  rw [State.claim_eq hactive hb]
  unfold Block.claimEntry at hdir ⊢
  by_cases hgrants : b.grants (J.dir == .capture) = true
  · rw [if_pos hgrants] at hdir ⊢
    rw [if_pos hgrants]
    obtain ⟨H, hH, hgranted⟩ := State.handGrant_granted (s := s.setBlock J.slot (some (b.claimed g J))) hG hq hrest'
    refine ⟨H, hH, hgranted.entitled hdir ?_, hgranted.flight⟩
    split_ifs
    · exact .inr rfl
    · exact .inl rfl
  · rw [if_neg hgrants] at hdir ⊢
    rw [if_neg hgrants, State.setJobState_eq (s := s.setBlock J.slot _) hG hq]
    refine ⟨_, State.setGang_gang_self .., ⟨{ J with state := .waiting }, rfl, rfl, hdir, rfl, fun id hid => ?_⟩,
      fun _ _ B' hB' hfl => absurd hfl (by simp [hrest' B' hB'])⟩
    exact Option.some.inj hid

/-- The entries behind a claim: those from before, and the one that it writes. -/
theorem State.enters_claim (hactive : s.Active g G J later B) (hb : s.block J.slot = some b) {j : SlotId} {c : Block}
    (hc : c ∈ (s.claim g).block j) {e : AccessEntry} (he : c.Enters k e) :
    (∃ b' ∈ s.block j, b'.Enters k e) ∨ k = g ∧ j = J.slot ∧ e = b.claimEntry J := by
  rw [State.claim_block hactive hb] at hc
  by_cases hj : j = J.slot
  · subst hj
    rw [State.setBlock_block_self] at hc
    obtain rfl := Option.some.inj hc
    exact (Block.enters_claimed he).imp (fun h => ⟨b, hb, h⟩) fun ⟨hk, he⟩ => ⟨hk, rfl, he⟩
  · rw [State.setBlock_block_ne _ _ hj] at hc
    exact .inl ⟨c, hc, he⟩

theorem State.Tidy.claim (hs : s.Tidy) (habsent : s.Absent g) (hactive : s.Active g G J later B)
    (hb : s.block J.slot = some b) : (s.claim g).Tidy := by
  intro j c hc
  rw [State.claim_block hactive hb] at hc
  by_cases hj : j = J.slot
  · subst hj
    rw [State.setBlock_block_self] at hc
    obtain rfl := Option.some.inj hc
    exact (hs J.slot b hb).claimed (habsent J.slot b hb) J
  · rw [State.setBlock_block_ne _ _ hj] at hc
    exact hs j c hc

end

/-- Every gang but `g` is entitled to its entries, and `g` has none. -/
structure State.FitBut (s : State) (g : GangId) : Prop where
  tidy : s.Tidy
  others : ∀ k, k ≠ g → s.Fits k
  absent : s.Absent g

theorem State.Fit.but (hs : s.Fit) (habsent : s.Absent g) : s.FitBut g := ⟨hs.tidy, fun k _ => hs.fits k, habsent⟩

theorem State.FitBut.fit (hs : s.FitBut g) (hflight : ∀ G ∈ s.gang g, G.FlightRuns) : s.Fit := by
  refine ⟨hs.tidy, fun k => ?_⟩
  by_cases hk : k = g
  · subst hk
    exact hs.absent.fits hflight
  · exact hs.others k hk

theorem State.FitBut.congr {t : State} (hs : s.FitBut g) (h : SameRecords s t)
    (hothers : ∀ k, k ≠ g → t.gang k = s.gang k) : t.FitBut g :=
  ⟨hs.tidy.congr h, fun k hk => (hs.others k hk).same (.of_same h k) (hothers k hk), hs.absent.noMore (.of_same h g)⟩

theorem State.FitBut.setGang (hs : s.FitBut g) (o : Option Gang) : (s.setGang g o).FitBut g :=
  hs.congr (.of_dir rfl) fun _ hk => State.setGang_gang_ne _ _ hk

/-- A gang without an entry claims the block of its active job. -/
theorem State.FitBut.claim {B : Beat} (hs : s.FitBut g) (hG : s.gang g = some G) (hbeat : G.beat = some B)
    (hrest : B.inFlight = false) : (s.claim g).Fit := by
  have hflight : ∀ G ∈ s.gang g, G.FlightRuns := by
    intro G' hG' K _ B' hB' hfl
    obtain rfl := Option.some.inj (hG.symm.trans hG')
    obtain rfl := Option.some.inj (hbeat.symm.trans hB')
    exact absurd hfl (by simp [hrest])
  cases hq : G.queue with
  | nil =>
    have hnone : s.claim g = s := State.withActive_none (fun G' J later B' h => by
      obtain ⟨hG', hq', -⟩ := h
      obtain rfl := Option.some.inj (hG.symm.trans hG')
      cases hq.symm.trans hq') _
    rw [hnone]
    exact hs.fit hflight
  | cons J later =>
    have hactive : s.Active g G J later B := ⟨hG, hq, hbeat⟩
    cases hb : s.block J.slot with
    | none =>
      rw [State.claim, State.withActive_eq hactive, hb]
      exact hs.fit hflight
    | some b =>
      refine ⟨hs.tidy.claim hs.absent hactive hb, fun k => ?_⟩
      by_cases hk : k = g
      · subst hk
        obtain ⟨H, hH, hentitled, hruns⟩ := State.claim_entitled hactive hb hrest
        refine ⟨fun j c hc e he => ⟨H, hH, ?_⟩, fun H' hH' => ?_⟩
        · rcases State.enters_claim hactive hb hc he with ⟨b', hb', hbe⟩ | ⟨-, rfl, rfl⟩
          · exact (hs.absent j b' hb' e hbe).elim
          · exact hentitled
        · obtain rfl := Option.some.inj (Option.mem_def.1 hH |>.symm.trans hH')
          exact hruns
      · refine (hs.others k hk).same (fun j c hc e he => ?_) (State.claim_gang_ne s hk)
        exact (State.enters_claim hactive hb hc he).resolve_right fun h => hk h.1

/-- The head of a queue becomes active (R122). -/
theorem State.FitBut.activate (hs : s.FitBut g) (hG : s.gang g = some G) : (s.activate g).Fit := by
  rw [State.activate_eq hG]
  exact State.FitBut.claim (B := Beat.init)
    (State.FitBut.setGang (s := s.setDrivers G false) (hs.congr (.of_dir rfl) fun _ _ => rfl) _)
    (State.setGang_gang_self ..) rfl rfl

/-! ## Departures -/

/-- Behind the release a departure changes the gang table of its own gang alone before its last step. -/
theorem State.departing_gang_ne (hG : s.gang g = some G) (J : Job) (later : List Job) (o : LastOutcome)
    (notice : Option NoticeBody) (hk : k ≠ g) :
    (s.departing g J later o notice).gang k = (s.released g J (keepOf o later)).gang k := by
  have hlast : ((s.removeHead g J (keepOf o later)).setLast g o).gang k = (s.released g J (keepOf o later)).gang k :=
    State.modGang_gang_ne (s.removeHead g J (keepOf o later)) _ hk
  have hgang : ((s.removeHead g J (keepOf o later)).setLast g o).gang g =
      some { G with queue := keepOf o later, beat := none, last := o } := by
    rw [State.setLast, State.modGang_gang_self, State.removeHead_gang hG]
    rfl
  cases notice with
  | none => exact ((State.dropJobs_dropped hgang _ _).others k hk).trans hlast
  | some body =>
    rw [State.departing, Option.elim, State.notifyOwner_eq hgang,
      (State.dropJobs_dropped ((State.notify_gang ..).trans hgang) _ _).others k hk, State.notify_gang, hlast]

theorem State.Fit.departing (hs : s.Fit) (hG : s.gang g = some G) (hq : G.queue = J :: later) (o : LastOutcome)
    (notice : Option NoticeBody) : (s.departing g J later o notice).FitBut g := by
  obtain ⟨hfit, habsent⟩ := hs.released hG hq (keepOf o later)
  exact (hfit.but habsent).congr (.departing hG J later o notice) fun k hk =>
    State.departing_gang_ne hG J later o notice hk

theorem State.Fit.departHead (hs : s.Fit) (g : GangId) (o : LastOutcome) (notice : Option NoticeBody) :
    (s.departHead g o notice).Fit := by
  cases hG : s.gang g with
  | none =>
    rw [State.departHead, hG]
    exact hs
  | some G =>
    cases hq : G.queue with
    | nil =>
      rw [State.departHead, hG]
      dsimp only
      rw [hq]
      exact hs
    | cons J later =>
      have hdeparting := hs.departing hG hq o notice
      by_cases hkeep : keepOf o later = []
      · obtain ⟨K, -, hKeq, hdone⟩ := State.departHead_last hG hq hkeep notice
        rw [hdone]
        set v := (s.departing g J later o notice).rested g K (J.dir == .send && G.beat.any Beat.drove) with hv
        obtain ⟨hgangs, -, -⟩ := v.syncEmptied_behind g
        have hgang (k : GangId) : (v.syncEmptied g).gang k = v.gang k := by rw [State.gang, hgangs]; rfl
        refine (hdeparting.congr (.rested _ g K _) fun k hk => (hgang k).trans (State.setGang_gang_ne _ _ hk)).fit
          fun H hH L _ B hB => ?_
        rw [hgang, hv, State.rested_gang, hKeq] at hH
        obtain rfl := Option.some.inj hH
        cases hB
      · obtain ⟨K, -, -, hdone⟩ := State.departHead_more hG hq hkeep notice
        rw [hdone]
        exact (hdeparting.setGang _).activate (State.setGang_gang_self ..)

end

end Sys2Proof.Machine
end

section
/-! PROOFS. Every step keeps the queues, the job numbers, the refs and the access records sound (O8, O9). -/

namespace Sys2Proof.Machine

section
variable {s t : State} {g : GangId} {G : Gang}

/-! ## The work of the gangs -/

/-- The active job `J` is PAUSED or RUNNING, as its gang is, and stays a holder when both change (R115, R130). -/
theorem Gang.Follows.switched {H : Gang} {J K : Job} {later later' : List Job} (hq : G.queue = J :: later)
    (hK : K = { J with state := AccessEntry.state H.run .reader }) (hq' : H.queue = K :: later')
    (hstate : J.state ≠ .waiting) (hflight : H.FlightRuns) : G.Follows H := by
  subst hK
  refine ⟨fun i e he => ?_, hflight⟩
  obtain ⟨J', hJ', hslot, hdir, hstate', hjob⟩ := he
  rw [hq] at hJ'
  obtain rfl := Option.some.inj hJ'
  refine ⟨{ J with state := AccessEntry.state H.run .reader }, by rw [hq']; rfl, hslot, hdir, ?_, hjob⟩
  cases e with
  | reader | writer => rfl
  | waiter job write => exact absurd hstate' hstate

/-- The run state changes, and the active job that holds a block is PAUSED or RUNNING as before. -/
theorem Gang.Follows.turned {run : RunState} (hrun : (run = .paused ↔ G.run = .paused) ∨
    ∀ J ∈ G.queue.head?, J.state ≠ if G.run = .paused then .paused else .running) (hflight : G.FlightRuns) :
    G.Follows { G with run := run } := by
  refine ⟨fun i e he => ?_, hflight⟩
  obtain ⟨J, hJ, hslot, hdir, hstate, hjob⟩ := he
  refine ⟨J, hJ, hslot, hdir, ?_, hjob⟩
  cases e with
  | waiter job write => exact hstate
  | reader | writer =>
    rcases hrun with hiff | hne
    · rw [hstate]
      exact (if_congr hiff rfl rfl).symm
    · exact absurd hstate (hne J hJ)

theorem State.Fit.queued {J : Job} (hs : s.Fit) (hG : s.gang g = some G) :
    if G.queue = [] then (s.queued g J).FitBut g else (s.queued g J).Fit := by
  have hothers (k : GangId) (hk : k ≠ g) : (s.queued g J).gang k = s.gang k := State.modGang_gang_ne _ _ hk
  have hgang : (s.queued g J).gang g = some { G with queue := G.queue ++ [J] } := by
    rw [State.queued, State.modGang_gang_self]
    exact congrArg _ hG
  have hrecords := SameRecords.queued s g J
  split_ifs with hempty
  · refine (hs.but ((hs.fits g).absent fun G' hG' => ?_)).congr hrecords hothers
    obtain rfl := Option.some.inj (hG.symm.trans hG')
    exact hempty
  · refine hs.follow hrecords hG hgang hothers (.of_head ?_ rfl rfl)
    exact List.head?_append_of_ne_nil _ hempty

theorem State.Fit.accept {J : Job} (hs : s.Fit) (hG : s.gang g = some G) : (s.accept g J G.queue.isEmpty).Fit := by
  have hqueued := hs.queued (J := J) hG
  rw [State.accept_cases]
  split_ifs with hempty
  · rw [if_pos (List.isEmpty_iff.1 hempty)] at hqueued
    refine hqueued.activate (G := { G with queue := G.queue ++ [J] }) ?_
    rw [State.queued, State.modGang_gang_self]
    exact congrArg _ hG
  · rwa [if_neg (mt List.isEmpty_iff.2 hempty)] at hqueued

theorem WorkStep.fit (h : WorkStep s t) (hs : s.Fit) : t.Fit := by
  cases h with
  | quiet h =>
    refine ⟨hs.tidy.congr (.of_dir h.dir), fun k => (hs.fits k).follows (.of_same (.of_dir h.dir) k)
      (fun G hG hflight => ?_) (h.free k)⟩
    obtain ⟨H, hH, hGH⟩ := h.formed k G hG
    exact ⟨H, hH, hGH.follows hflight⟩
  | departed g o notice => exact hs.departHead g o notice
  | @completed g G J later B hactive hflight =>
    obtain ⟨hG, hq, hbeat⟩ := hactive
    have hrunning := (hs.fits g).flight G hG J (by rw [hq]; rfl) B hbeat hflight
    refine hs.setGang hG fun _ => .switched hq rfl rfl (by rw [hrunning]; decide) fun _ _ C hC hfl => ?_
    obtain rfl := Option.some.inj hC
    simp [Beat.next] at hfl
  | @formed g G hfree hqueue hbeat =>
    refine ((hs.but ((hs.fits g).absent fun G' hG' => ?_)).setGang (some G)).fit fun H hH J _ B hB => ?_
    · cases hfree.symm.trans hG'
    · obtain rfl := Option.some.inj ((State.setGang_gang_self ..).symm.trans hH)
      cases hbeat.symm.trans hB
  | @dissolved g G hG hqueue =>
    refine ((hs.but ((hs.fits g).absent fun G' hG' => ?_)).setGang none).fit fun H hH => ?_
    · obtain rfl := Option.some.inj (hG.symm.trans hG')
      exact hqueue
    · cases (State.setGang_gang_self ..).symm.trans hH
  | submitted hG hroom hid hstate hb => exact hs.accept hG
  | @left g G before behind J hG hqueue hbefore =>
    obtain ⟨hgang, hothers, -⟩ := State.departQueued_spec hG before J behind _ rfl
    refine hs.follow (.departQueued hG before J behind) hG hgang hothers (.of_head ?_ rfl rfl)
    rw [hqueue, List.head?_append_of_ne_nil _ hbefore]
    exact (List.head?_append_of_ne_nil _ hbefore).symm
  | @halting g G J behind hG hqueue =>
    refine hs.follow (.haltBehind s g behind) hG (State.setGang_gang_self ..) (fun k hk => ?_) (.of_head ?_ rfl rfl)
    · exact (State.setGang_gang_ne _ _ hk).trans (s.haltBehind_gang_ne behind hk)
    · rw [hqueue]
      rfl
  | @turned g G run hG hrun => exact hs.setGang hG (.turned hrun)
  | @paused g G J later hG hqueue hstate hrest =>
    exact hs.setGang hG fun _ => .switched hqueue rfl rfl (by rw [hstate]; decide)
      fun _ _ B hB hfl => absurd hfl (by simp [hrest B hB])
  | @resumed g G J later hG hqueue hstate =>
    refine hs.setGang hG fun _ => .switched hqueue rfl rfl (by rw [hstate]; decide) fun K hK _ _ _ => ?_
    obtain rfl := Option.some.inj hK
    rfl

/-! ## The block store, the link reset and the restarts -/

/-- No record has an entry, and no gang is formed. -/
theorem State.fit_of_free (hblocks : ∀ i, ∀ b ∈ s.block i, b.readers = [] ∧ b.writer = none ∧ b.waiters = [])
    (hgangs : ∀ k, s.gang k = none) : s.Fit := by
  refine ⟨fun i b hb => ?_, fun k => ⟨fun i b hb e he => ?_, fun G hG => ?_⟩⟩
  · obtain ⟨hr, -, hq⟩ := hblocks i b hb
    rw [Block.Tidy, hr, hq]
    exact ⟨.nil, .nil⟩
  · obtain ⟨hr, hw, hq⟩ := hblocks i b hb
    cases e <;> simp [Block.Enters, hr, hw, hq] at he
  · cases (hgangs k).symm.trans hG

/-- Blocks change while no record gains an entry. -/
theorem State.Fit.store (hs : s.Fit) (hgangs : t.gangs = s.gangs)
    (hblocks : ∀ i, ∀ c ∈ t.block i, (c.Tidy ∧ ∀ k e, ¬c.Enters k e) ∨
      ∃ b ∈ s.block i, c.readers = b.readers ∧ c.writer = b.writer ∧ c.waiters = b.waiters) : t.Fit := by
  have hgang (k : GangId) : t.gang k = s.gang k := by rw [State.gang, hgangs]; rfl
  refine ⟨fun i c hc => ?_, fun k => (hs.fits k).same (fun i c hc e he => ?_) (hgang k)⟩
  · rcases hblocks i c hc with ⟨htidy, -⟩ | ⟨b, hb, hr, -, hq⟩
    · exact htidy
    · rw [Block.Tidy, hr, hq]
      exact hs.tidy i b hb
  · rcases hblocks i c hc with ⟨-, hnone⟩ | ⟨b, hb, hr, hw, hq⟩
    · exact (hnone k e he).elim
    · refine ⟨b, hb, ?_⟩
      cases e <;> simpa only [Block.Enters, hr, hw, hq] using he

theorem State.Fit.modBlock (hs : s.Fit) (i : SlotId) {f : Block → Block} (hgangs : t.gangs = s.gangs)
    (hdir : t.dir = (s.modBlock i f).dir)
    (hf : ∀ b, (f b).readers = b.readers ∧ (f b).writer = b.writer ∧ (f b).waiters = b.waiters) : t.Fit := by
  refine hs.store hgangs fun j c hc => .inr ?_
  have hc' : c ∈ (s.modBlock i f).block j := by rwa [State.block, ← hdir]
  by_cases hj : j = i
  · subst hj
    rw [State.modBlock_block_self] at hc'
    obtain ⟨b, hb, rfl⟩ := Option.map_eq_some_iff.1 hc'
    exact ⟨b, hb, hf b⟩
  · rw [State.modBlock_block_ne _ _ hj] at hc'
    exact ⟨c, hc', rfl, rfl, rfl⟩

theorem State.Fit.endPack (hs : s.Fit) (stopped : Bool) : (s.endPack stopped).Fit :=
  hs.congr (.endPack s stopped) fun k => (s.sameTable_endPack stopped).gang k

theorem StoreEffect.fit (h : StoreEffect s t) (hs : s.Fit) : t.Fit := by
  cases h with
  | @created j name size base free fill hslot hsize hidle hfit =>
    refine hs.store rfl fun i c hc => ?_
    by_cases hij : i = j
    · subst hij
      rw [State.create_block_self] at hc
      obtain rfl := Option.some.inj hc
      refine .inl ⟨⟨.nil, .nil⟩, fun k e he => ?_⟩
      cases e <;> simp [Block.Enters, newBlock] at he
    · rw [State.create_block_ne _ _ _ _ _ _ hij] at hc
      exact .inr ⟨c, hc, rfl, rfl, rfl⟩
  | @destroyed j b hb hready hrefs =>
    refine hs.store rfl fun i c hc => .inr ?_
    by_cases hij : i = j
    · subst hij
      rw [State.destroy_block_self] at hc
      cases hc
    · rw [State.destroy_block_ne _ _ hij] at hc
      exact ⟨c, hc, rfl, rfl, rfl⟩
  | written | filled | packStarted | packStopping => exact hs.congr (.of_dir rfl) fun _ => rfl
  | packEnded stopped => exact hs.endPack stopped
  | @visited j b hrun hmove hb =>
    unfold State.visitBlock
    split
    · exact hs.congr (.of_dir rfl) fun _ => rfl
    · split_ifs
      · exact hs.congr (.of_dir rfl) fun _ => rfl
      · rename_i e _ _
        exact hs.modBlock j (f := fun b => { b with dest := some e.base }) rfl rfl fun _ => ⟨rfl, rfl, rfl⟩
  | @moved m hm =>
    have hfinished : (s.finishMove m).Fit :=
      hs.modBlock m.slot (f := fun b => { b with base := m.dst, dest := none }) rfl rfl fun _ => ⟨rfl, rfl, rfl⟩
    split_ifs
    · exact (hfinished.evaluate m.slot).endPack true
    · exact hfinished.evaluate m.slot

/-- The gangs of a link go, and their entries with them (R134). -/
theorem State.Fit.tornDown (hs : s.Fit) (x : LinkId) : (s.tornDown x).Fit := by
  have hback {i : SlotId} {c : Block} (hc : c ∈ (s.tornDown x).block i) : ∃ b ∈ s.block i,
      (b.Tidy → c.Tidy) ∧ ∀ k e, c.Enters k e → b.Enters k e ∧ s.ownedBy x k = false := by
    rw [State.tornDown_block] at hc
    obtain ⟨b, hb, rfl⟩ := Option.map_eq_some_iff.1 hc
    have hrecord : Block.record { b.without (s.ownedBy x) with refs := b.refs - countNaming i (s.jobsOf (s.ownedBy x)) } =
        (b.without (s.ownedBy x)).record := rfl
    exact ⟨b, hb, fun htidy => (htidy.without _).congr hrecord, fun k e he =>
      Block.enters_without ((Block.enters_congr hrecord).1 he)⟩
  refine ⟨fun i c hc => ?_, fun k => ?_⟩
  · obtain ⟨b, hb, htidy, -⟩ := hback hc
    exact htidy (hs.tidy i b hb)
  · cases hown : s.ownedBy x k with
    | true =>
      refine State.Absent.fits (fun i c hc e he => ?_) fun G hG => ?_
      · obtain ⟨b, -, -, hentry⟩ := hback hc
        exact Bool.false_ne_true ((hentry k e he).2.symm.trans hown)
      · rw [State.tornDown_gang, if_pos hown] at hG
        cases hG
    | false =>
      refine (hs.fits k).same (fun i c hc e he => ?_) ?_
      · obtain ⟨b, hb, -, hentry⟩ := hback hc
        exact ⟨b, hb, (hentry k e he).1⟩
      · rw [State.tornDown_gang, if_neg (by simp [hown])]

end

theorem keptBehindLinks_fit : KeptBehindLinks State.Fit where
  wires {s t} h hs := by
    refine hs.congr (.of_wires h) fun k => ?_
    obtain ⟨_, _, _, _, _, _, _, rfl⟩ := h
    rfl
  store _ h hs := h.fit hs
  gang _ h hs := h.work.keeps (fun _ _ => WorkStep.fit) hs
  teardown s x hs := (hs.tornDown x).evaluates _
  cleared s _ := by
    refine State.fit_of_free (fun i c hc => ?_) fun k => by simp [State.gang, State.cleared]
    rw [State.cleared_block] at hc
    obtain ⟨b, -, rfl⟩ := Option.map_eq_some_iff.1 hc
    exact ⟨rfl, rfl, rfl⟩
  restarted s rsel _ _ _ _ _ _ _ :=
    State.fit_of_free (fun i c hc => by simp [State.block, State.fullRestart] at hc) fun k => by
      simp [State.gang, State.fullRestart]
  startupEnded _ _ hs := hs.congr (.of_dir rfl) fun _ => rfl
  sensed _ _ _ _ hs := hs.congr (.of_dir rfl) fun _ => rfl
  holdRecorded _ _ _ _ hs := hs.congr (.of_dir rfl) fun _ => rfl

/-- A step keeps every gang entitled to its entries (R26, R115). -/
theorem fit_step {s t : State} (hs : s.Fit) (h : step s = .next t) : t.Fit :=
  keptBehindLinks_fit.step (fun _ _ hs => hs.congr (.of_dir rfl) fun _ => rfl) hs h

/-- Settles O8: `State.Numbered` is kept by every step, and so is `State.Fit`, which says of the records what R26 says. -/
theorem queuesAndNumberingStaySound : Obligations.QueuesAndNumberingStaySound := by
  refine ⟨fun s t hshape hnumbers h => ?_, fun s t _ _ hentries hflights h => ?_⟩
  · obtain ⟨hshape', hnumbers'⟩ :=
      keptBehindLinks_numbered.step (fun _ _ hs => ⟨hs.shape, hs.numbers⟩) ⟨hshape, hnumbers⟩ h
    exact ⟨hshape', hnumbers'⟩
  · exact (t.fit_iff.1 (fit_step (s.fit_iff.2 ⟨hentries, hflights⟩) h)).2

/-- Settles O9: the refs count the live jobs, a grant evaluation leaves no waiter that could be granted, and every entry
stands for an active job, which names one block. -/
theorem refsAndAccessRecordsStaySound : Obligations.RefsAndAccessRecordsStaySound := by
  refine ⟨fun s t hs h => keptBehindLinks_refsCount.step (fun _ _ hs => hs) hs h,
    fun s t hs h => keptBehindLinks_accessSound.step (fun _ _ hs => hs) hs h,
    fun s t _ _ hflights hentries h => (t.fit_iff.1 (fit_step (s.fit_iff.2 ⟨hentries, hflights⟩) h)).1,
    fun s hs g i j b hb c hc hbg hcg => ?_⟩
  obtain ⟨k, e, hk, he⟩ := (b.mentions_iff _).1 hbg
  obtain ⟨l, f, hl, hf⟩ := (c.mentions_iff _).1 hcg
  obtain rfl := beq_iff_eq.1 hk
  obtain rfl := beq_iff_eq.1 hl
  exact Gang.Entitled.slot_unique (hs.entitled hb he) (hs.entitled hc hf)

end Sys2Proof.Machine
end
